-- ==== Sys2Proof/Word.lean ====
section
/-!
DEFINITION. The word types of the core: a 16-bit word, an 8-bit byte of the image format, and the
32-bit value an ALU operation is computed in (00_scope.md R6; 40_alu.md R80).
-/

namespace Sys2Proof

/-- A register, SP, PC or memory word: 16 bits (00_scope.md R6). -/
abbrev Word := BitVec 16

/-- A byte, as the image input and the input hook give one (20_memory.md R34; 43_io_system.md R190). -/
abbrev Byte := BitVec 8

/-- A word widened to 32 bits (00_scope.md R6; 40_alu.md R80). -/
abbrev Wide := BitVec 32

/-- `zext_32` of 00_scope.md R7. -/
abbrev widen (w : Word) : Wide := w.setWidth 32

/-- The low 16 bits of a widened value (00_scope.md R6: "truncated to 16 bits"). -/
abbrev truncate (r : Wide) : Word := r.setWidth 16

/-- `hi ++ lo`: the word a big-endian byte pair forms (20_memory.md R34). -/
abbrev wordOfBytes (hi lo : Byte) : Word := hi ++ lo

/-- Bits [15:8] of a word. -/
abbrev highByte (w : Word) : Byte := w.extractLsb' 8 8

/-- Bits [7:0] of a word. -/
abbrev lowByte (w : Word) : Byte := w.extractLsb' 0 8

end Sys2Proof
end

