-- ==== Sys2Proof/Config.lean ====
section
/-!
DEFINITION. What an implementation fixes: the constants and the named parameters of 00_scope.md R5,
and the answers of the two hooks, which the environment gives under no law (43_io_system.md R190, R191).
-/

namespace Sys2Proof.Config

/-- MEM_WORDS: 32768 words in each memory array (00_scope.md R5; 10_state.md R16). -/
abbrev memWords : Nat := 0x8000

/-- MAX_ADDR = 0x7FFF: an access, an operand fetch or a step needs an address strictly below it
(00_scope.md R5; 20_memory.md R32; 90_conflicts.md C1). -/
abbrev maxAddr : Nat := 0x7FFF

/-- SP_INIT (00_scope.md R5). -/
abbrev spInit : Word := 0x7FFE#16

/-- PC_INIT (00_scope.md R5). -/
abbrev pcInit : Word := 0#16

/-- IMAGE_BYTES: the only length a code-region image may have (20_memory.md R37). -/
abbrev imageBytes : Nat := 65536

/-- FLAG_LAYOUT: the bit of the flag-register image that holds each flag (10_state.md R21). -/
structure FlagLayout where
  equal    : Fin 16
  zero     : Fin 16
  carry    : Fin 16
  greater  : Fin 16
  lesser   : Fin 16
  negative : Fin 16
  divZero  : Fin 16
deriving DecidableEq, Repr

/-- The spec's default FLAG_LAYOUT, in the source's listing order (00_scope.md R5; decision D5). -/
def FlagLayout.default : FlagLayout :=
  { equal := 0, zero := 1, carry := 2, greater := 3, lesser := 4, negative := 5, divZero := 6 }

/-- CARRY_AWARE: which of the eight operations take the carry in when bit 0 is set (40_alu.md R82). -/
structure CarryAware where
  add  : Bool
  sub  : Bool
  mult : Bool
  div  : Bool
  mod  : Bool
  and  : Bool
  or   : Bool
  xor  : Bool
deriving DecidableEq, Repr

/-- The spec's default CARRY_AWARE: add and sub (00_scope.md R5; decision D6). -/
def CarryAware.default : CarryAware :=
  { add := true, sub := true, mult := false, div := false,
    mod := false, and := false, or := false, xor := false }

/-- The named parameters that a rule of the core reads (00_scope.md R5). TARGET_RATE is host-only and no
rule reads it (decision D30), so it is not here. -/
structure Params where
  flagLayout       : FlagLayout
  carryAware       : CarryAware
  divClearsDz      : Bool
  shiftWritesFlags : Bool
  breakpAdvances   : Bool
  icmcExtras       : Bool
deriving DecidableEq, Repr

/-- Every parameter at the spec's default (00_scope.md R5). -/
def Params.default : Params :=
  { flagLayout := FlagLayout.default, carryAware := CarryAware.default, divClearsDz := false,
    shiftWritesFlags := false, breakpAdvances := true, icmcExtras := false }

/-- What the input hook returns: a key value or a fault (43_io_system.md R190). 255, the conventional
"no key", is an ordinary key value. -/
inductive InputAnswer where
  | key (v : Byte)
  | fault
deriving DecidableEq, Repr, Inhabited

/-- What the output hook returns (43_io_system.md R191). -/
inductive OutputAnswer where
  | ok
  | fault
deriving DecidableEq, Repr, Inhabited

/-- FREE VALUE: the answer of the input hook's n-th call, a draw under no law (43_io_system.md R190;
decision D22). It has no body that a proof could see. -/
opaque inputDraw : Nat → InputAnswer

/-- FREE VALUE: the answer of the output hook's n-th call, a draw under no law (43_io_system.md R191;
decision D22). It has no body that a proof could see. -/
opaque outputDraw : Nat → OutputAnswer

end Sys2Proof.Config
end

