-- ==== Sys2Proof/Machine/State.lean ====
section
/-!
DEFINITION. The state of the machine as plain data: every piece of state of 10_state.md, and beside it what the
spec puts outside the processor but a step reads or answers: the last step's answer, the hooks and the named
parameters (log entries 3, 4 and 5). Then the state right after reset.
-/

namespace Sys2Proof.Machine

open Sys2Proof.Config

/-- The ten fault kinds of 60_exceptions.md R260, in the order of their codes. A fault is a step's answer to the
host and leaves a state the spec fixes (R264), so every kind is recorded in `State.outcome` of a NEXT state and
no step of this model ends in `Host.Outcome.fault`. All are safe: each is the spec's own answer, with its
state (log entry 4). -/
inductive Fault where
  /-- Code 1. Raised by the step at PC ≥ 0x7FFF (44_execution_engine.md R213). Safe. -/
  | pcOutOfRange
  /-- Code 2. Raised by the step on an opcode with no table entry (44_execution_engine.md R214). Safe. -/
  | unknownInstruction
  /-- Code 3. Raised by load, store, loadn, a jump or a call at PC = 0x7FFE (decision D13). Safe. -/
  | operandOutOfRange
  /-- Code 4. Raised by a jump or call with cond = 15 (41_control_flow.md R121). Safe. -/
  | invalidCondition
  /-- Code 5. Raised by load, store, loadi, storei on an address ≥ 0x7FFF (42_memory_stack.md R175). Safe. -/
  | invalidAddress
  /-- Code 6. Raised by push, pop, a taken call, rts and mov sp,rx (60_exceptions.md R260). Safe. -/
  | invalidStackPointer
  /-- Code 7. Raised by a taken jump or call and by rts on a target > 0x7FFF (decision D14). Safe. -/
  | invalidTarget
  /-- Code 8. Raised by mod with a zero divisor (40_alu.md R89). Safe. -/
  | modByZero
  /-- Code 9. Raised by inchar when the input hook returns a fault (43_io_system.md R192). Safe. -/
  | ioFaultInput
  /-- Code 10. Raised by outchar when the output hook returns a fault (43_io_system.md R193). Safe. -/
  | ioFaultOutput
deriving DecidableEq, Repr

/-- The one reason to refuse. -/
inductive Refusal where
  /-- Raised by `exec` for an instruction that has no meaning yet. Safe. No arm of `exec` uses it. -/
  | notModelled (mnemonic : String)
deriving DecidableEq, Repr

/-- What a fault records (60_exceptions.md R263): the kind, the PC at the start of the step and, for the kinds
3 to 10, the instruction word that was fetched. -/
structure FaultRecord where
  kind : Fault
  addr : Word
  word : Option Word
deriving DecidableEq, Repr

/-- The reasons of a stop (00_scope.md R8; 60_exceptions.md R261). -/
inductive StopReason where
  | halt
  | breakpoint
deriving DecidableEq, Repr

/-- How a step, or a routine, ends (00_scope.md R8). -/
inductive StepOutcome where
  | cont
  | stop (r : StopReason)
  | fault (f : FaultRecord)
deriving DecidableEq, Repr

/-- The engine status (44_execution_engine.md R216). -/
inductive EngineStatus where
  | idle
  | running
  | halted
  | faulted
deriving DecidableEq, Repr

/-- The flag register FR: seven independent flags; `carry` is also the overflow condition (10_state.md R18). -/
structure Flags where
  equal    : Bool
  zero     : Bool
  carry    : Bool
  greater  : Bool
  lesser   : Bool
  negative : Bool
  divZero  : Bool
deriving DecidableEq, Repr

/-- All seven flags 0 (10_state.md R18). -/
def Flags.clear : Flags :=
  { equal := false, zero := false, carry := false, greater := false, lesser := false,
    negative := false, divZero := false }

/-- Memory: the bytes that are not 0, at strictly rising byte addresses. Word `a` is the big-endian pair of the
bytes `2a` and `2a + 1`, the layout of the image (20_memory.md R34). An unlisted byte reads 0, as
construction leaves it (70_reset_and_hazards.md R283). DESIGN CHOICE, safe: log entry 2. -/
abbrev Memory := List Host.Cell

/-- The canonical form: byte addresses strictly rising and inside the 32768 words, and no byte that an
unlisted address reads as (20_memory.md R30). -/
abbrev Memory.wf (m : Memory) : Prop :=
  m.Pairwise (fun c d => c.1 < d.1) ∧ ∀ c ∈ m, c.2 ≠ 0#8 ∧ c.1 < 2 * memWords

/-- One call of the output hook: the character and the screen position (43_io_system.md R191). -/
structure OutEvent where
  char : Word
  pos  : Word
deriving DecidableEq, Repr

/-- The environment behind the two hooks (43_io_system.md R190, R191): the answers it is known to give next, how
often each hook was called, and the output events made so far, oldest first. With no answer listed, a call
draws the free value of Config at its counter. DESIGN CHOICE, safe: log entries 5 and 6. -/
structure Hooks where
  inputAnswers  : List InputAnswer
  outputAnswers : List OutputAnswer
  inputCalls    : Nat
  outputCalls   : Nat
  outputs       : List OutEvent
deriving DecidableEq, Repr

/-- An environment of which nothing is known and that was never called. -/
def Hooks.fresh : Hooks :=
  { inputAnswers := [], outputAnswers := [], inputCalls := 0, outputCalls := 0, outputs := [] }

/-- The state of the machine (10_state.md). -/
structure State where
  /-- R0 to R7 (R10). -/
  regs : Vector Word 8
  /-- The stack pointer (R12). -/
  sp : Word
  /-- The program counter (R14). -/
  pc : Word
  /-- The flag register (R18). -/
  flags : Flags
  /-- `memory_live` (R16). -/
  live : Memory
  /-- `memory_baseline` (R17). -/
  baseline : Memory
  /-- `instruction_count`, unbounded (R22). -/
  instructionCount : Nat
  /-- `running` (R23). -/
  running : Bool
  /-- The engine status (R24; 44_execution_engine.md R216). -/
  status : EngineStatus
  /-- The model's own: what the last step answered (00_scope.md R8; log entry 4). -/
  outcome : StepOutcome
  /-- The model's own: the environment behind the hooks (log entry 5). -/
  hooks : Hooks
  /-- The model's own: the named parameters, which nothing writes (00_scope.md R5; log entry 3). -/
  params : Params
deriving DecidableEq, Repr

/-- What a meaning or a step answers. -/
abbrev Result := Host.Outcome State Fault Refusal

/-- The machine right after construction and reset (70_reset_and_hazards.md R281, R283): registers and flags 0,
PC 0, SP 0x7FFE, both memories all zero, count 0, `running` false, status Idle. The model's own fields:
DESIGN CHOICE, log entry 7. The parameters have the spec's defaults (log entry 3). -/
def State.reset : State :=
  { regs := Vector.replicate 8 0#16
    sp := spInit
    pc := pcInit
    flags := Flags.clear
    live := []
    baseline := []
    instructionCount := 0
    running := false
    status := .idle
    outcome := .cont
    hooks := Hooks.fresh
    params := Params.default }

end Sys2Proof.Machine
end

