-- ==== Sys2Proof/Machine/Flags.lean ====
section
/-!
DEFINITION. Every flag computation of the spec: the ALU update, the shift update, the compare, the flag-register
image and the condition truth table.
-/

namespace Sys2Proof.Machine

open Sys2Proof.Config

/-- `alu_flags(r)`: zero, carry and negative from the 32-bit result before truncation (40_alu.md R81). -/
def Flags.afterAlu (f : Flags) (r : Wide) : Flags :=
  { f with
    zero := truncate r == 0#16
    carry := decide (0xFFFF < r.toNat)
    negative := r.getLsbD 15 }

/-- The flags of a shift or rotate: none, or zero and negative when SHIFT_WRITES_FLAGS (40_alu.md R96). -/
def Flags.afterShift (f : Flags) (writes : Bool) (res : Word) : Flags :=
  if writes then { f with zero := res == 0#16, negative := res.getLsbD 15 } else f

/-- cmp: exactly one of equal, greater and lesser, by unsigned comparison (40_alu.md R106). -/
def Flags.afterCmp (f : Flags) (a b : Word) : Flags :=
  { f with equal := a == b, greater := decide (b.toNat < a.toNat), lesser := decide (a.toNat < b.toNat) }

/-- One bit of the image. -/
def flagBit (position : Fin 16) (b : Bool) : Word := if b then 1#16 <<< position.val else 0#16

/-- `fr_image(fr)`: bit FLAG_LAYOUT(f) is the flag f, every other bit is 0 (10_state.md R21). -/
def Flags.image (l : FlagLayout) (f : Flags) : Word :=
  flagBit l.equal f.equal ||| flagBit l.zero f.zero ||| flagBit l.carry f.carry |||
  flagBit l.greater f.greater ||| flagBit l.lesser f.lesser ||| flagBit l.negative f.negative |||
  flagBit l.divZero f.divZero

/-- `fr_from_image(v)`: each flag is its bit of v, the other bits are discarded (10_state.md R21). -/
def Flags.fromImage (l : FlagLayout) (v : Word) : Flags :=
  { equal := v.getLsbD l.equal.val
    zero := v.getLsbD l.zero.val
    carry := v.getLsbD l.carry.val
    greater := v.getLsbD l.greater.val
    lesser := v.getLsbD l.lesser.val
    negative := v.getLsbD l.negative.val
    divZero := v.getLsbD l.divZero.val }

/-- The 15 condition codes, in the order of their numbers 0 to 14 (41_control_flow.md R120). -/
inductive Cond where
  | always
  | equal
  | notEqual
  | zero
  | notZero
  | carry
  | notCarry
  | greater
  | lesser
  | equalOrGreater
  | equalOrLesser
  | overflow
  | notOverflow
  | divZero
  | negative
deriving DecidableEq, Repr

/-- `cond(k, fr)` (41_control_flow.md R120). -/
def Cond.holds (k : Cond) (f : Flags) : Bool :=
  match k with
  | .always => true
  | .equal => f.equal
  | .notEqual => !f.equal
  | .zero => f.zero
  | .notZero => !f.zero
  | .carry => f.carry
  | .notCarry => !f.carry
  | .greater => f.greater
  | .lesser => f.lesser
  | .equalOrGreater => f.equal || f.greater
  | .equalOrLesser => f.equal || f.lesser
  | .overflow => f.carry
  | .notOverflow => !f.carry
  | .divZero => f.divZero
  | .negative => f.negative

end Sys2Proof.Machine
end

