-- ==== Sys2Proof/Syntax.lean ====
section
/-!
DEFINITION. The instructions of the core: one constructor for each row of spec/opcode_table.json, with the
operands of its format (30_encoding.md R51 to R55). A bit that a format ignores (R59) is no operand.
-/

namespace Sys2Proof

/-- A 3-bit register selector (30_encoding.md R51). -/
abbrev RegIdx := BitVec 3

/-- The 4-bit shift amount (30_encoding.md R52). -/
abbrev Shamt := BitVec 4

/-- An instruction with its operands. `target`, `addr` and `imm` are the second word of a 2-word
instruction, used whole (30_encoding.md R54); `c` is the carry-variant bit (R51). -/
inductive Instr where
  /-- rx <- ry + rz (40_alu.md R83). -/
  | add (rx ry rz : RegIdx)
  /-- rx <- ry + rz + carry (40_alu.md R84). -/
  | addc (rx ry rz : RegIdx)
  /-- rx <- ry - rz (40_alu.md R85). -/
  | sub (rx ry rz : RegIdx)
  /-- rx <- ry - rz + carry (40_alu.md R86). -/
  | subc (rx ry rz : RegIdx)
  /-- rx <- ry * rz (40_alu.md R87). -/
  | mult (rx ry rz : RegIdx) (c : Bool)
  /-- rx <- ry / rz (40_alu.md R88). -/
  | div (rx ry rz : RegIdx) (c : Bool)
  /-- rx <- ry mod rz (40_alu.md R89). -/
  | mod (rx ry rz : RegIdx) (c : Bool)
  /-- rx <- rx + 1 (40_alu.md R90). -/
  | inc (rx : RegIdx)
  /-- rx <- rx - 1 (40_alu.md R91). -/
  | dec (rx : RegIdx)
  /-- rx <- ry AND rz (40_alu.md R92). -/
  | and (rx ry rz : RegIdx) (c : Bool)
  /-- rx <- ry OR rz (40_alu.md R93). -/
  | or (rx ry rz : RegIdx) (c : Bool)
  /-- rx <- ry XOR rz (40_alu.md R94). -/
  | xor (rx ry rz : RegIdx) (c : Bool)
  /-- rx <- NOT ry (40_alu.md R95). -/
  | not (rx ry : RegIdx)
  /-- shift left, zeros in (40_alu.md R97). -/
  | shiftl0 (rx : RegIdx) (n : Shamt)
  /-- shift left, ones in (40_alu.md R98). -/
  | shiftl1 (rx : RegIdx) (n : Shamt)
  /-- shift right, zeros in (40_alu.md R99). -/
  | shiftr0 (rx : RegIdx) (n : Shamt)
  /-- shift right, ones in (40_alu.md R100). -/
  | shiftr1 (rx : RegIdx) (n : Shamt)
  /-- rotate left (40_alu.md R101). -/
  | rotl (rx : RegIdx) (n : Shamt)
  /-- rotate right (40_alu.md R102). -/
  | rotr (rx : RegIdx) (n : Shamt)
  /-- rx <- ry (40_alu.md R103). -/
  | movRxRy (rx ry : RegIdx)
  /-- rx <- SP (40_alu.md R104). -/
  | movRxSp (rx : RegIdx)
  /-- SP <- rx (40_alu.md R105). -/
  | movSpRx (rx : RegIdx)
  /-- compare rx with ry, unsigned (40_alu.md R106). -/
  | cmp (rx ry : RegIdx)
  /-- jump: always (41_control_flow.md R123). -/
  | jmp (target : Word)
  /-- jump: equal (41_control_flow.md R124). -/
  | jeq (target : Word)
  /-- jump: not equal (41_control_flow.md R125). -/
  | jne (target : Word)
  /-- jump: zero (41_control_flow.md R126). -/
  | jz (target : Word)
  /-- jump: not zero (41_control_flow.md R127). -/
  | jnz (target : Word)
  /-- jump: carry (41_control_flow.md R128). -/
  | jc (target : Word)
  /-- jump: not carry (41_control_flow.md R129). -/
  | jnc (target : Word)
  /-- jump: greater (41_control_flow.md R130). -/
  | jgr (target : Word)
  /-- jump: lesser (41_control_flow.md R131). -/
  | jle (target : Word)
  /-- jump: equal or greater (41_control_flow.md R132). -/
  | jeg (target : Word)
  /-- jump: equal or lesser (41_control_flow.md R133). -/
  | jel (target : Word)
  /-- jump: overflow (41_control_flow.md R134). -/
  | jov (target : Word)
  /-- jump: not overflow (41_control_flow.md R135). -/
  | jno (target : Word)
  /-- jump: division by zero (41_control_flow.md R136). -/
  | jdz (target : Word)
  /-- jump: negative (41_control_flow.md R137). -/
  | jn (target : Word)
  /-- reserved: raises InvalidCondition (41_control_flow.md R121). -/
  | jcond15 (target : Word)
  /-- call: always (41_control_flow.md R139). -/
  | call (target : Word)
  /-- call: equal (41_control_flow.md R140). -/
  | ceq (target : Word)
  /-- call: not equal (41_control_flow.md R141). -/
  | cne (target : Word)
  /-- call: zero (41_control_flow.md R142). -/
  | cz (target : Word)
  /-- call: not zero (41_control_flow.md R143). -/
  | cnz (target : Word)
  /-- call: carry (41_control_flow.md R144). -/
  | cc (target : Word)
  /-- call: not carry (41_control_flow.md R145). -/
  | cnc (target : Word)
  /-- call: greater (41_control_flow.md R146). -/
  | cgr (target : Word)
  /-- call: lesser (41_control_flow.md R147). -/
  | cle (target : Word)
  /-- call: equal or greater (41_control_flow.md R148). -/
  | ceg (target : Word)
  /-- call: equal or lesser (41_control_flow.md R149). -/
  | cel (target : Word)
  /-- call: overflow (41_control_flow.md R150). -/
  | cov (target : Word)
  /-- call: not overflow (41_control_flow.md R151). -/
  | cno (target : Word)
  /-- call: division by zero (41_control_flow.md R152). -/
  | cdz (target : Word)
  /-- call: negative (41_control_flow.md R153). -/
  | cn (target : Word)
  /-- reserved: raises InvalidCondition (41_control_flow.md R121). -/
  | ccond15 (target : Word)
  /-- return (41_control_flow.md R154). -/
  | rts
  /-- push rx (42_memory_stack.md R171). -/
  | pushRx (rx : RegIdx)
  /-- push the flag register (42_memory_stack.md R172). -/
  | pushFr
  /-- pop into rx (42_memory_stack.md R173). -/
  | popRx (rx : RegIdx)
  /-- pop into the flag register (42_memory_stack.md R174). -/
  | popFr
  /-- rx <- M[addr] (42_memory_stack.md R176). -/
  | load (rx : RegIdx) (addr : Word)
  /-- M[addr] <- rx (42_memory_stack.md R177). -/
  | store (rx : RegIdx) (addr : Word)
  /-- rx <- imm (42_memory_stack.md R178). -/
  | loadn (rx : RegIdx) (imm : Word)
  /-- rx <- M[ry] (42_memory_stack.md R179). -/
  | loadi (rx ry : RegIdx)
  /-- M[rx] <- ry (42_memory_stack.md R180). -/
  | storei (rx ry : RegIdx)
  /-- rx <- the input hook (43_io_system.md R192). -/
  | inchar (rx : RegIdx)
  /-- the output hook gets (rx, ry) (43_io_system.md R193). -/
  | outchar (rx ry : RegIdx)
  /-- stop, PC stays (43_io_system.md R194). -/
  | halt
  /-- stop at a breakpoint (43_io_system.md R195). -/
  | breakp
  /-- nothing (43_io_system.md R196). -/
  | nop
  /-- carry <- 1 (43_io_system.md R197). -/
  | setc
  /-- carry <- 0 (43_io_system.md R198). -/
  | clearc
deriving DecidableEq, Repr

end Sys2Proof
end

