-- ==== Sys2Proof/WellFormed.lean ====
section
/-!
DEFINITION. The checks on syntax and parameters that their types do not make: an instruction of the optional
extras needs ICMC_EXTRAS (30_encoding.md R57, R60), and FLAG_LAYOUT is injective (10_state.md R21). Every
other operand is well-formed by its type (a selector has 3 bits, a shift amount 4, a second word 16).
-/

namespace Sys2Proof

/-- Whether the opcode table has the instruction: nop, setc and clearc are in it only when ICMC_EXTRAS
(30_encoding.md R57). -/
def Instr.wf (extras : Bool) : Instr → Bool
  | .nop => extras
  | .setc => extras
  | .clearc => extras
  | _ => true

/-- The bit positions of a layout, in the order of 00_scope.md R5. -/
def Config.FlagLayout.positions (l : Config.FlagLayout) : List (Fin 16) :=
  [l.equal, l.zero, l.carry, l.greater, l.lesser, l.negative, l.divZero]

/-- FLAG_LAYOUT is "an injective map from the seven flags to bit positions" (10_state.md R21). -/
abbrev Config.FlagLayout.wf (l : Config.FlagLayout) : Prop := l.positions.Nodup

/-- The parameters a core may be built with (00_scope.md R5). -/
abbrev Config.Params.wf (p : Config.Params) : Prop := p.flagLayout.wf

end Sys2Proof
end

