-- ==== Sys2Proof/Decode.lean ====
section
/-!
DEFINITION. Decoding and encoding (30_encoding.md). The opcode table (R56, R57) drives both the engine and the
disassembler. Opcode numbers and field positions are the spec's own decision from the ICMC encoding
(92_eei_decisions.md D1 to D3; log entry 1: UNVERIFIED).
-/

namespace Sys2Proof

/-! ## Fields of the first word (30_encoding.md R50 to R52) -/

/-- `op = w[15:10]` (R50). -/
def opcodeField (w : Word) : BitVec 6 := w.extractLsb' 10 6

/-- rx, bits [9:7] (R51). -/
def rxField (w : Word) : RegIdx := w.extractLsb' 7 3

/-- ry, bits [6:4] (R51). -/
def ryField (w : Word) : RegIdx := w.extractLsb' 4 3

/-- rz, bits [3:1] (R51). -/
def rzField (w : Word) : RegIdx := w.extractLsb' 1 3

/-- c, the carry-variant bit, bit 0 (R51). -/
def carryBit (w : Word) : Bool := w.getLsbD 0

/-- cond, bits [9:6] (R52). -/
def condField (w : Word) : BitVec 4 := w.extractLsb' 6 4

/-- shmode, bits [6:4] (R52). -/
def shmodeField (w : Word) : BitVec 3 := w.extractLsb' 4 3

/-- shamt, bits [3:0] (R52). -/
def shamtField (w : Word) : Shamt := w.extractLsb' 0 4

/-- dec (of inc/dec) and usefr (of push/pop), bit 6 (R52). -/
def modeBit (w : Word) : Bool := w.getLsbD 6

/-- movmode, bits [1:0] (R52). -/
def movmodeField (w : Word) : BitVec 2 := w.extractLsb' 0 2

/-- setc, bit 9 (R52). -/
def setcBit (w : Word) : Bool := w.getLsbD 9

/-! ## The opcode table -/

/-- The word size the opcode table holds for an opcode, `none` where it has no entry (30_encoding.md R56, R57,
R60). ICMC_EXTRAS adds the opcodes 0 and 8 and nothing else (R62). -/
def opcodeSize (extras : Bool) (op : Nat) : Option Nat :=
  match op with
  | 0 => if extras then some 1 else none
  | 2 => some 2
  | 3 => some 2
  | 4 => some 1
  | 5 => some 1
  | 6 => some 1
  | 8 => if extras then some 1 else none
  | 14 => some 1
  | 15 => some 1
  | 16 => some 1
  | 18 => some 1
  | 19 => some 1
  | 20 => some 1
  | 21 => some 1
  | 22 => some 1
  | 32 => some 1
  | 33 => some 1
  | 34 => some 1
  | 35 => some 1
  | 36 => some 1
  | 37 => some 1
  | 48 => some 2
  | 49 => some 2
  | 50 => some 1
  | 51 => some 1
  | 53 => some 1
  | 56 => some 2
  | 60 => some 1
  | 61 => some 1
  | _ => none

/-! ## Decoding -/

/-- Why bytes are no instruction. -/
inductive DecodeError where
  /-- The opcode has no table entry (30_encoding.md R58, R60): the step raises UnknownInstruction. -/
  | unknownInstruction (op : BitVec 6)
  /-- Fewer bytes than the instruction has. The step always has enough (Ops.lean, fetchBytes). -/
  | truncated
deriving DecidableEq, Repr

/-- The jump family by its condition field (41_control_flow.md R120, R121). -/
def decodeJump (k : BitVec 4) (target : Word) : Instr :=
  match k.toNat with
  | 0 => .jmp target
  | 1 => .jeq target
  | 2 => .jne target
  | 3 => .jz target
  | 4 => .jnz target
  | 5 => .jc target
  | 6 => .jnc target
  | 7 => .jgr target
  | 8 => .jle target
  | 9 => .jeg target
  | 10 => .jel target
  | 11 => .jov target
  | 12 => .jno target
  | 13 => .jdz target
  | 14 => .jn target
  | _ => .jcond15 target

/-- The call family by its condition field (41_control_flow.md R120, R121). -/
def decodeCall (k : BitVec 4) (target : Word) : Instr :=
  match k.toNat with
  | 0 => .call target
  | 1 => .ceq target
  | 2 => .cne target
  | 3 => .cz target
  | 4 => .cnz target
  | 5 => .cc target
  | 6 => .cnc target
  | 7 => .cgr target
  | 8 => .cle target
  | 9 => .ceg target
  | 10 => .cel target
  | 11 => .cov target
  | 12 => .cno target
  | 13 => .cdz target
  | 14 => .cn target
  | _ => .ccond15 target

/-- The shift family by its mode; 4 and 5 both select rotl, 6 and 7 both select rotr (30_encoding.md R52, R61). -/
def decodeShift (m : BitVec 3) (rx : RegIdx) (n : Shamt) : Instr :=
  match m.toNat with
  | 0 => .shiftl0 rx n
  | 1 => .shiftl1 rx n
  | 2 => .shiftr0 rx n
  | 3 => .shiftr1 rx n
  | 4 => .rotl rx n
  | 5 => .rotl rx n
  | _ => .rotr rx n

/-- The three moves; movmode 0b10 selects mov rx,ry as 0b00 does (30_encoding.md R52, R61). -/
def decodeMov (m : BitVec 2) (rx ry : RegIdx) : Instr :=
  match m.toNat with
  | 1 => .movRxSp rx
  | 3 => .movSpRx rx
  | _ => .movRxRy rx ry

/-- The instruction a first word and its operand word stand for (30_encoding.md R57, R58). `imm` is read only
by 2-word instructions (R54). Bits a format ignores are not read (R59). -/
def decodeWord (extras : Bool) (w imm : Word) : Except DecodeError Instr :=
  match (opcodeField w).toNat with
  | 0 => if extras then .ok .nop else .error (.unknownInstruction (opcodeField w))
  | 2 => .ok (decodeJump (condField w) imm)
  | 3 => .ok (decodeCall (condField w) imm)
  | 4 => .ok .rts
  | 5 => .ok (if modeBit w then .pushFr else .pushRx (rxField w))
  | 6 => .ok (if modeBit w then .popFr else .popRx (rxField w))
  | 8 =>
    if extras then .ok (if setcBit w then .setc else .clearc)
    else .error (.unknownInstruction (opcodeField w))
  | 14 => .ok .breakp
  | 15 => .ok .halt
  | 16 => .ok (decodeShift (shmodeField w) (rxField w) (shamtField w))
  | 18 => .ok (.and (rxField w) (ryField w) (rzField w) (carryBit w))
  | 19 => .ok (.or (rxField w) (ryField w) (rzField w) (carryBit w))
  | 20 => .ok (.xor (rxField w) (ryField w) (rzField w) (carryBit w))
  | 21 => .ok (.not (rxField w) (ryField w))
  | 22 => .ok (.cmp (rxField w) (ryField w))
  | 32 =>
    .ok (if carryBit w then .addc (rxField w) (ryField w) (rzField w)
         else .add (rxField w) (ryField w) (rzField w))
  | 33 =>
    .ok (if carryBit w then .subc (rxField w) (ryField w) (rzField w)
         else .sub (rxField w) (ryField w) (rzField w))
  | 34 => .ok (.mult (rxField w) (ryField w) (rzField w) (carryBit w))
  | 35 => .ok (.div (rxField w) (ryField w) (rzField w) (carryBit w))
  | 36 => .ok (if modeBit w then .dec (rxField w) else .inc (rxField w))
  | 37 => .ok (.mod (rxField w) (ryField w) (rzField w) (carryBit w))
  | 48 => .ok (.load (rxField w) imm)
  | 49 => .ok (.store (rxField w) imm)
  | 50 => .ok (.outchar (rxField w) (ryField w))
  | 51 => .ok (decodeMov (movmodeField w) (rxField w) (ryField w))
  | 53 => .ok (.inchar (rxField w))
  | 56 => .ok (.loadn (rxField w) imm)
  | 60 => .ok (.loadi (rxField w) (ryField w))
  | 61 => .ok (.storei (rxField w) (ryField w))
  | _ => .error (.unknownInstruction (opcodeField w))

/-- Decoding of bytes laid out as the image lays out words, each a big-endian pair (20_memory.md R34): the
instruction and the bytes after it. The opcode alone gives the length (30_encoding.md R56). -/
def decode (extras : Bool) : List Byte → Except DecodeError (Instr × List Byte)
  | h :: l :: rest =>
    match opcodeSize extras (opcodeField (wordOfBytes h l)).toNat with
    | none => .error (.unknownInstruction (opcodeField (wordOfBytes h l)))
    | some 2 =>
      match rest with
      | h2 :: l2 :: rest2 =>
        (decodeWord extras (wordOfBytes h l) (wordOfBytes h2 l2)).map fun i => (i, rest2)
      | _ => .error .truncated
    | some _ => (decodeWord extras (wordOfBytes h l) 0#16).map fun i => (i, rest)
  | _ => .error .truncated

/-! ## Encoding (30_encoding.md R53, R63) -/

/-- Format F3R. -/
def encodeF3R (op : BitVec 6) (rx ry rz : RegIdx) (c : Bool) : Word :=
  op ++ rx ++ ry ++ rz ++ BitVec.ofBool c

/-- Format F2R. -/
def encodeF2R (op : BitVec 6) (rx ry : RegIdx) : Word := op ++ rx ++ ry ++ 0#4

/-- Format FMV. -/
def encodeFMV (op : BitVec 6) (rx ry : RegIdx) (m : BitVec 2) : Word := op ++ rx ++ ry ++ 0#2 ++ m

/-- Formats F1R and F1W. -/
def encodeF1 (op : BitVec 6) (rx : RegIdx) : Word := op ++ rx ++ 0#7

/-- Format FRB. -/
def encodeFRB (op : BitVec 6) (rx : RegIdx) (b : Bool) : Word := op ++ rx ++ BitVec.ofBool b ++ 0#6

/-- Format FSH. -/
def encodeFSH (op : BitVec 6) (rx : RegIdx) (m : BitVec 3) (n : Shamt) : Word := op ++ rx ++ m ++ n

/-- Format FCW. -/
def encodeFCW (op : BitVec 6) (k : BitVec 4) : Word := op ++ k ++ 0#6

/-- Format FN. -/
def encodeFN (op : BitVec 6) : Word := op ++ 0#10

/-- Format FSC. -/
def encodeFSC (op : BitVec 6) (b : Bool) : Word := op ++ BitVec.ofBool b ++ 0#9

/-- The first word of an instruction, every ignored bit 0 (30_encoding.md R63). -/
def encodeFirst : Instr → Word
  | .add rx ry rz => encodeF3R 32#6 rx ry rz false
  | .addc rx ry rz => encodeF3R 32#6 rx ry rz true
  | .sub rx ry rz => encodeF3R 33#6 rx ry rz false
  | .subc rx ry rz => encodeF3R 33#6 rx ry rz true
  | .mult rx ry rz c => encodeF3R 34#6 rx ry rz c
  | .div rx ry rz c => encodeF3R 35#6 rx ry rz c
  | .mod rx ry rz c => encodeF3R 37#6 rx ry rz c
  | .inc rx => encodeFRB 36#6 rx false
  | .dec rx => encodeFRB 36#6 rx true
  | .and rx ry rz c => encodeF3R 18#6 rx ry rz c
  | .or rx ry rz c => encodeF3R 19#6 rx ry rz c
  | .xor rx ry rz c => encodeF3R 20#6 rx ry rz c
  | .not rx ry => encodeF2R 21#6 rx ry
  | .shiftl0 rx n => encodeFSH 16#6 rx 0#3 n
  | .shiftl1 rx n => encodeFSH 16#6 rx 1#3 n
  | .shiftr0 rx n => encodeFSH 16#6 rx 2#3 n
  | .shiftr1 rx n => encodeFSH 16#6 rx 3#3 n
  | .rotl rx n => encodeFSH 16#6 rx 4#3 n
  | .rotr rx n => encodeFSH 16#6 rx 6#3 n
  | .movRxRy rx ry => encodeFMV 51#6 rx ry 0#2
  | .movRxSp rx => encodeFMV 51#6 rx 0#3 1#2
  | .movSpRx rx => encodeFMV 51#6 rx 0#3 3#2
  | .cmp rx ry => encodeF2R 22#6 rx ry
  | .jmp _ => encodeFCW 2#6 0#4
  | .jeq _ => encodeFCW 2#6 1#4
  | .jne _ => encodeFCW 2#6 2#4
  | .jz _ => encodeFCW 2#6 3#4
  | .jnz _ => encodeFCW 2#6 4#4
  | .jc _ => encodeFCW 2#6 5#4
  | .jnc _ => encodeFCW 2#6 6#4
  | .jgr _ => encodeFCW 2#6 7#4
  | .jle _ => encodeFCW 2#6 8#4
  | .jeg _ => encodeFCW 2#6 9#4
  | .jel _ => encodeFCW 2#6 10#4
  | .jov _ => encodeFCW 2#6 11#4
  | .jno _ => encodeFCW 2#6 12#4
  | .jdz _ => encodeFCW 2#6 13#4
  | .jn _ => encodeFCW 2#6 14#4
  | .jcond15 _ => encodeFCW 2#6 15#4
  | .call _ => encodeFCW 3#6 0#4
  | .ceq _ => encodeFCW 3#6 1#4
  | .cne _ => encodeFCW 3#6 2#4
  | .cz _ => encodeFCW 3#6 3#4
  | .cnz _ => encodeFCW 3#6 4#4
  | .cc _ => encodeFCW 3#6 5#4
  | .cnc _ => encodeFCW 3#6 6#4
  | .cgr _ => encodeFCW 3#6 7#4
  | .cle _ => encodeFCW 3#6 8#4
  | .ceg _ => encodeFCW 3#6 9#4
  | .cel _ => encodeFCW 3#6 10#4
  | .cov _ => encodeFCW 3#6 11#4
  | .cno _ => encodeFCW 3#6 12#4
  | .cdz _ => encodeFCW 3#6 13#4
  | .cn _ => encodeFCW 3#6 14#4
  | .ccond15 _ => encodeFCW 3#6 15#4
  | .rts => encodeFN 4#6
  | .pushRx rx => encodeFRB 5#6 rx false
  | .pushFr => encodeFRB 5#6 0#3 true
  | .popRx rx => encodeFRB 6#6 rx false
  | .popFr => encodeFRB 6#6 0#3 true
  | .load rx _ => encodeF1 48#6 rx
  | .store rx _ => encodeF1 49#6 rx
  | .loadn rx _ => encodeF1 56#6 rx
  | .loadi rx ry => encodeF2R 60#6 rx ry
  | .storei rx ry => encodeF2R 61#6 rx ry
  | .inchar rx => encodeF1 53#6 rx
  | .outchar rx ry => encodeF2R 50#6 rx ry
  | .halt => encodeFN 15#6
  | .breakp => encodeFN 14#6
  | .nop => encodeFN 0#6
  | .setc => encodeFSC 8#6 true
  | .clearc => encodeFSC 8#6 false

/-- The second word of a 2-word instruction (30_encoding.md R54). -/
def encodeSecond : Instr → Option Word
  | .add _ _ _ => none
  | .addc _ _ _ => none
  | .sub _ _ _ => none
  | .subc _ _ _ => none
  | .mult _ _ _ _ => none
  | .div _ _ _ _ => none
  | .mod _ _ _ _ => none
  | .inc _ => none
  | .dec _ => none
  | .and _ _ _ _ => none
  | .or _ _ _ _ => none
  | .xor _ _ _ _ => none
  | .not _ _ => none
  | .shiftl0 _ _ => none
  | .shiftl1 _ _ => none
  | .shiftr0 _ _ => none
  | .shiftr1 _ _ => none
  | .rotl _ _ => none
  | .rotr _ _ => none
  | .movRxRy _ _ => none
  | .movRxSp _ => none
  | .movSpRx _ => none
  | .cmp _ _ => none
  | .jmp target => some target
  | .jeq target => some target
  | .jne target => some target
  | .jz target => some target
  | .jnz target => some target
  | .jc target => some target
  | .jnc target => some target
  | .jgr target => some target
  | .jle target => some target
  | .jeg target => some target
  | .jel target => some target
  | .jov target => some target
  | .jno target => some target
  | .jdz target => some target
  | .jn target => some target
  | .jcond15 target => some target
  | .call target => some target
  | .ceq target => some target
  | .cne target => some target
  | .cz target => some target
  | .cnz target => some target
  | .cc target => some target
  | .cnc target => some target
  | .cgr target => some target
  | .cle target => some target
  | .ceg target => some target
  | .cel target => some target
  | .cov target => some target
  | .cno target => some target
  | .cdz target => some target
  | .cn target => some target
  | .ccond15 target => some target
  | .rts => none
  | .pushRx _ => none
  | .pushFr => none
  | .popRx _ => none
  | .popFr => none
  | .load _ addr => some addr
  | .store _ addr => some addr
  | .loadn _ imm => some imm
  | .loadi _ _ => none
  | .storei _ _ => none
  | .inchar _ => none
  | .outchar _ _ => none
  | .halt => none
  | .breakp => none
  | .nop => none
  | .setc => none
  | .clearc => none

/-- The words of an instruction (30_encoding.md R63). -/
def encode (i : Instr) : List Word := encodeFirst i :: (encodeSecond i).toList

/-- The bytes of words, each word a big-endian pair (20_memory.md R34). -/
def bytesOfWords (ws : List Word) : List Byte := ws.flatMap fun w => [highByte w, lowByte w]

/-- The word size of an instruction (30_encoding.md R56). -/
def Instr.size (i : Instr) : Nat := if (encodeSecond i).isSome then 2 else 1

/-! ## The host's question -/

/-- The first word of an instruction whose bits are `w`: bits [15:0], every bit from `nbits` on being 0. -/
def tableFirst (nbits w : Nat) : Word := BitVec.ofNat 16 (w % 2 ^ nbits)

/-- Its second word: bits [31:16], every bit from `nbits` on being 0. -/
def tableSecond (nbits w : Nat) : Word := BitVec.ofNat 16 (w % 2 ^ nbits / 2 ^ 16)

/-- The instruction the decoder reads from an instruction whose bits are `w`, with the whole opcode table of
R57 (ICMC_EXTRAS true: log entry 8). -/
def decodeTableWord (nbits w : Nat) : Option Instr :=
  match decode true (bytesOfWords [tableFirst nbits w, tableSecond nbits w]) with
  | .ok (i, _) => some i
  | .error _ => none

end Sys2Proof
end

