-- ==== Sys2Proof/Machine/Ops.lean ====
section
/-!
DEFINITION. The named operations over memory, registers and the hooks; the three ways a routine ends, raising a
fault among them; the fetch; and what the engine does after a routine.
-/

namespace Sys2Proof.Machine

open Sys2Proof.Config

/-! ## Memory (20_memory.md) -/

/-- The byte at a byte address; 0 where none is listed (70_reset_and_hazards.md R283). -/
def Memory.readByte : Memory → Nat → Byte
  | [], _ => 0#8
  | c :: m, k => if c.1 = k then c.2 else Memory.readByte m k

/-- A cell put before the first cell of a higher address. -/
def Memory.insertCell (c : Host.Cell) : Memory → Memory
  | [] => [c]
  | d :: m => if c.1 < d.1 then c :: d :: m else d :: Memory.insertCell c m

/-- One byte written; a 0 byte is not listed, so that equal memories are equal data. -/
def Memory.writeByte (m : Memory) (k : Nat) (v : Byte) : Memory :=
  if v = 0#8 then m.filter (fun c => c.1 != k) else Memory.insertCell (k, v) (m.filter (fun c => c.1 != k))

/-- `MemRead(a, 1)` (00_scope.md R7): one whole word, read as its big-endian pair of bytes (20_memory.md R33,
R34). No rule reads at 0x8000 or above (R31; log entry 11). -/
def Memory.readWord (m : Memory) (a : Word) : Word :=
  wordOfBytes (m.readByte (2 * a.toNat)) (m.readByte (2 * a.toNat + 1))

/-- `MemWrite(a, 1, v)` (00_scope.md R7). No rule writes at 0x8000 or above (20_memory.md R31). -/
def Memory.writeWord (m : Memory) (a v : Word) : Memory :=
  (m.writeByte (2 * a.toNat) (highByte v)).writeByte (2 * a.toNat + 1) (lowByte v)

/-! ## Reading and writing the state -/

/-- `x[i]` (00_scope.md R7; 10_state.md R10). -/
def State.reg (s : State) (i : RegIdx) : Word := s.regs.get i.toFin

/-- `x[i] <- v`. -/
def State.setReg (s : State) (i : RegIdx) (v : Word) : State :=
  { s with regs := s.regs.set i.toNat v i.isLt }

/-- `sp <- v`. -/
def State.setSp (s : State) (v : Word) : State := { s with sp := v }

/-- `pc <- v`. -/
def State.setPc (s : State) (v : Word) : State := { s with pc := v }

/-- `fr <- f`. -/
def State.setFlags (s : State) (f : Flags) : State := { s with flags := f }

/-- `MemRead(a, 1)` of the live memory. -/
def State.readWord (s : State) (a : Word) : Word := s.live.readWord a

/-- The byte of the live memory at a byte address. -/
def State.readByte (s : State) (k : Nat) : Byte := s.live.readByte k

/-- `MemWrite(a, 1, v)` on the live memory. -/
def State.writeWord (s : State) (a v : Word) : State := { s with live := s.live.writeWord a v }

/-! ## How a routine ends (00_scope.md R7, R8) -/

/-- The routine answers `o`. -/
def State.answer (s : State) (o : StepOutcome) : State := { s with outcome := o }

/-- A routine that ends without `raise` or `stop` answers Continue. -/
def State.complete (s : State) : State := s.answer .cont

/-- `stop <Reason>`. -/
def State.stop (s : State) (r : StopReason) : State := s.answer (.stop r)

/-- `raise <Fault>(pc)` of a routine: TAKING AN EXCEPTION on this core. Nothing is saved into the machine, no mode
or mask changes and no control is transferred (60_exceptions.md R267); the step answers the record of R263:
the kind, the PC of the instruction and the instruction word there. There is no return from it but the next
step (R269). -/
def State.raise (s : State) (k : Fault) : State :=
  s.answer (.fault { kind := k, addr := s.pc, word := some (s.readWord s.pc) })

/-- A fault of the step itself, before a word was decoded: kinds 1 and 2 record no word (60_exceptions.md R263). -/
def State.raiseUndecoded (s : State) (k : Fault) : State :=
  s.answer (.fault { kind := k, addr := s.pc, word := none })

/-! ## The hooks (43_io_system.md R190, R191) -/

/-- What the next call of the input hook answers: the known answer, else a free draw. -/
def Hooks.nextInput (h : Hooks) : InputAnswer :=
  match h.inputAnswers with
  | a :: _ => a
  | [] => inputDraw h.inputCalls

/-- The environment after a call of the input hook (R190). -/
def Hooks.afterInput (h : Hooks) : Hooks :=
  { h with inputAnswers := h.inputAnswers.tail, inputCalls := h.inputCalls + 1 }

/-- What the next call of the output hook answers: the known answer, else a free draw. -/
def Hooks.nextOutput (h : Hooks) : OutputAnswer :=
  match h.outputAnswers with
  | a :: _ => a
  | [] => outputDraw h.outputCalls

/-- The environment after a call of the output hook: the event is recorded, in program order (R191). -/
def Hooks.afterOutput (h : Hooks) (e : OutEvent) : Hooks :=
  { h with
    outputAnswers := h.outputAnswers.tail
    outputCalls := h.outputCalls + 1
    outputs := h.outputs ++ [e] }

/-- The input hook is called. -/
def State.callInput (s : State) : State := { s with hooks := s.hooks.afterInput }

/-- The output hook is called with a character and a position. -/
def State.callOutput (s : State) (char pos : Word) : State :=
  { s with hooks := s.hooks.afterOutput { char := char, pos := pos } }

/-! ## The engine around a routine (44_execution_engine.md) -/

/-- The four bytes at PC: the instruction word and the word after it. Reading ahead has no effect (20_memory.md
R33; log entry 10). -/
def State.fetchBytes (s : State) : List Byte :=
  [s.readByte (2 * s.pc.toNat), s.readByte (2 * s.pc.toNat + 1),
   s.readByte (2 * s.pc.toNat + 2), s.readByte (2 * s.pc.toNat + 3)]

/-- The instruction at PC, by the opcode table of the core's parameters (44_execution_engine.md R210). -/
def State.fetch (s : State) : Option Instr :=
  match decode s.params.icmcExtras s.fetchBytes with
  | .ok (i, _) => some i
  | .error _ => none

/-- The engine status after a step answered `o` (44_execution_engine.md R216). -/
def EngineStatus.after (st : EngineStatus) (o : StepOutcome) : EngineStatus :=
  match o with
  | .stop _ => .halted
  | .fault _ => .faulted
  | .cont =>
    match st with
    | .running => .running
    | _ => .idle

/-- The status bookkeeping at the end of a step (44_execution_engine.md R216). -/
def State.noteStatus (s : State) : State := { s with status := s.status.after s.outcome }

/-- After a routine returns, whatever its outcome: PC advances by the word size modulo 2^16 and the counter by 1
(44_execution_engine.md R211, R215). -/
def State.retire (s : State) (size : Nat) : State :=
  State.noteStatus
    { s with pc := s.pc + BitVec.ofNat 16 size, instructionCount := s.instructionCount + 1 }

/-- A step that starts at PC ≥ MAX_ADDR: PCOutOfRange, and no register, flag, memory word, PC or counter
changes (44_execution_engine.md R213). -/
def State.faultPcOutOfRange (s : State) : State := (s.raiseUndecoded .pcOutOfRange).noteStatus

/-- A step on an opcode with no table entry: PC advances by 1 and the counter does not change
(44_execution_engine.md R214). -/
def State.faultUnknown (s : State) : State :=
  ((s.raiseUndecoded .unknownInstruction).setPc (s.pc + 1#16)).noteStatus

end Sys2Proof.Machine
end

