-- ==== Sys2Proof/Machine/Operands.lean ====
section
/-!
DEFINITION. The checks on operands and addresses that the rules make before any write: the operand word, data
addresses, targets and the four stack bounds (20_memory.md R32; 60_exceptions.md R260).
-/

namespace Sys2Proof.Machine

open Sys2Proof.Config

/-- `fetch_ok(pc)` (20_memory.md R32; 44_execution_engine.md R213). -/
def fetchOk (pc : Word) : Bool := decide (pc.toNat < maxAddr)

/-- `operand_ok(pc)`: the second word of a 2-word instruction is below MAX_ADDR (20_memory.md R32). -/
def operandOk (pc : Word) : Bool := decide (pc.toNat + 1 < maxAddr)

/-- `data_ok(a)`, the check of load, store, loadi and storei (20_memory.md R32; 42_memory_stack.md R175). -/
def dataOk (a : Word) : Bool := decide (a.toNat < maxAddr)

/-- A control-transfer target is at most 0x7FFF (41_control_flow.md R122; decision D14). -/
def targetOk (t : Word) : Bool := decide (t.toNat ≤ 0x7FFF)

/-- push and call: `0 < sp and sp < 0x8000` (42_memory_stack.md R171; 41_control_flow.md R138). -/
def pushOk (sp : Word) : Bool := decide (0 < sp.toNat) && decide (sp.toNat < 0x8000)

/-- pop: `sp < 0x7FFF` (42_memory_stack.md R173). -/
def popOk (sp : Word) : Bool := decide (sp.toNat < 0x7FFF)

/-- rts: `sp < 0x7FFE`, one lower than pop's (41_control_flow.md R154; 90_conflicts.md C4). -/
def rtsOk (sp : Word) : Bool := decide (sp.toNat < 0x7FFE)

/-- mov sp,rx: the value is at most 0x7FFF (40_alu.md R105). -/
def spValueOk (v : Word) : Bool := decide (v.toNat ≤ 0x7FFF)

end Sys2Proof.Machine
end

