-- ==== Sys2Proof/Machine/Alu.lean ====
section
/-!
DEFINITION. The ALU family: arithmetic, logic, shift and rotate, move and compare (40_alu.md).
-/

namespace Sys2Proof.Machine

open Sys2Proof.Config

/-! ## The shared template (40_alu.md R80 to R82) -/

/-- `carry_in(w, name, r)`: 1 more when the operation is carry-aware, bit 0 of the word is set and the carry flag is
set, modulo 2^32 (R82). -/
def carryIn (aware bit0 carry : Bool) (r : Wide) : Wide := if aware && bit0 && carry then r + 1#32 else r

/-- The end of every ALU routine: zero, carry and negative from the 32-bit result, then its low 16 bits into rx
(R80, R81). -/
def State.writeAlu (s : State) (rx : RegIdx) (r : Wide) : State :=
  ((s.setFlags (s.flags.afterAlu r)).setReg rx (truncate r)).complete

/-- `alu_binary(w, f, name)` (R80): both sources are read before any write. -/
def State.aluBinary (s : State) (f : Wide → Wide → Wide) (aware bit0 : Bool) (rx ry rz : RegIdx) : State :=
  s.writeAlu rx (carryIn aware bit0 s.flags.carry (f (widen (s.reg ry)) (widen (s.reg rz))))

/-- a + b, modulo 2^32. -/
def wideAdd (a b : Wide) : Wide := a + b

/-- (a - b) mod 2^32. -/
def wideSub (a b : Wide) : Wide := a - b

/-- a * b, modulo 2^32. -/
def wideMul (a b : Wide) : Wide := a * b

/-- floor(a / b), unsigned. -/
def wideDiv (a b : Wide) : Wide := a / b

/-- a - b * floor(a / b) (R89). -/
def wideMod (a b : Wide) : Wide := a - b * (a / b)

/-- a AND b. -/
def wideAnd (a b : Wide) : Wide := a &&& b

/-- a OR b. -/
def wideOr (a b : Wide) : Wide := a ||| b

/-- a XOR b. -/
def wideXor (a b : Wide) : Wide := a ^^^ b

/-! ## Arithmetic -/

/-- add (R83). -/
def execAdd (rx ry rz : RegIdx) (s : State) : Result :=
  .next (s.aluBinary wideAdd s.params.carryAware.add false rx ry rz)

/-- addc (R84). -/
def execAddc (rx ry rz : RegIdx) (s : State) : Result :=
  .next (s.aluBinary wideAdd s.params.carryAware.add true rx ry rz)

/-- sub (R85). -/
def execSub (rx ry rz : RegIdx) (s : State) : Result :=
  .next (s.aluBinary wideSub s.params.carryAware.sub false rx ry rz)

/-- subc: the carry is added, not subtracted (R86). -/
def execSubc (rx ry rz : RegIdx) (s : State) : Result :=
  .next (s.aluBinary wideSub s.params.carryAware.sub true rx ry rz)

/-- mult (R87). -/
def execMult (rx ry rz : RegIdx) (c : Bool) (s : State) : Result :=
  .next (s.aluBinary wideMul s.params.carryAware.mult c rx ry rz)

/-- div_zero <- 0 when DIV_CLEARS_DZ (R88). -/
def State.clearDivZero (s : State) : State :=
  if s.params.divClearsDz then s.setFlags { s.flags with divZero := false } else s

/-- div: a zero divisor sets div_zero and writes nothing else (R88). -/
def execDiv (rx ry rz : RegIdx) (c : Bool) (s : State) : Result :=
  .next
    (if s.reg rz = 0#16 then (s.setFlags { s.flags with divZero := true }).complete
     else (s.aluBinary wideDiv s.params.carryAware.div c rx ry rz).clearDivZero)

/-- mod: a zero divisor raises ModByZero (R89). -/
def execMod (rx ry rz : RegIdx) (c : Bool) (s : State) : Result :=
  .next
    (if s.reg rz = 0#16 then s.raise .modByZero
     else s.aluBinary wideMod s.params.carryAware.mod c rx ry rz)

/-- inc (R90). -/
def execInc (rx : RegIdx) (s : State) : Result := .next (s.writeAlu rx (wideAdd (widen (s.reg rx)) 1#32))

/-- dec (R91). -/
def execDec (rx : RegIdx) (s : State) : Result := .next (s.writeAlu rx (wideSub (widen (s.reg rx)) 1#32))

/-! ## Logic -/

/-- and (R92). -/
def execAnd (rx ry rz : RegIdx) (c : Bool) (s : State) : Result :=
  .next (s.aluBinary wideAnd s.params.carryAware.and c rx ry rz)

/-- or (R93). -/
def execOr (rx ry rz : RegIdx) (c : Bool) (s : State) : Result :=
  .next (s.aluBinary wideOr s.params.carryAware.or c rx ry rz)

/-- xor (R94). -/
def execXor (rx ry rz : RegIdx) (c : Bool) (s : State) : Result :=
  .next (s.aluBinary wideXor s.params.carryAware.xor c rx ry rz)

/-- not: no flag update (R95). -/
def execNot (rx ry : RegIdx) (s : State) : Result :=
  .next (s.setReg rx (s.reg ry ^^^ 0xFFFF#16)).complete

/-! ## Shift and rotate (40_alu.md R96 to R102) -/

/-- `(a << n) mod 2^16` (R97). -/
def shiftLeftZeros (a : Word) (n : Shamt) : Word := a <<< n.toNat

/-- `((a << n) | (2^n - 1)) mod 2^16` (R98). -/
def shiftLeftOnes (a : Word) (n : Shamt) : Word := (a <<< n.toNat) ||| ((1#16 <<< n.toNat) - 1#16)

/-- `floor(a / 2^n)` (R99). -/
def shiftRightZeros (a : Word) (n : Shamt) : Word := a >>> n.toNat

/-- `floor(a / 2^n) | (0xFFFF ^ (0xFFFF >> n))` (R100). -/
def shiftRightOnes (a : Word) (n : Shamt) : Word :=
  (a >>> n.toNat) ||| (0xFFFF#16 ^^^ (0xFFFF#16 >>> n.toNat))

/-- `n == 0 ? a : ((a << n) | (a >> (16 - n))) mod 2^16` (R101). -/
def rotateLeft (a : Word) (n : Shamt) : Word :=
  if n = 0#4 then a else (a <<< n.toNat) ||| (a >>> (16 - n.toNat))

/-- `n == 0 ? a : ((a >> n) | (a << (16 - n))) mod 2^16` (R102). -/
def rotateRight (a : Word) (n : Shamt) : Word :=
  if n = 0#4 then a else (a >>> n.toNat) ||| (a <<< (16 - n.toNat))

/-- The common part of shift and rotate: rx <- res, and the flags when SHIFT_WRITES_FLAGS (R96). -/
def State.writeShift (s : State) (rx : RegIdx) (res : Word) : State :=
  ((s.setReg rx res).setFlags (s.flags.afterShift s.params.shiftWritesFlags res)).complete

/-- shiftl0 (R97). -/
def execShiftl0 (rx : RegIdx) (n : Shamt) (s : State) : Result :=
  .next (s.writeShift rx (shiftLeftZeros (s.reg rx) n))

/-- shiftl1 (R98). -/
def execShiftl1 (rx : RegIdx) (n : Shamt) (s : State) : Result :=
  .next (s.writeShift rx (shiftLeftOnes (s.reg rx) n))

/-- shiftr0 (R99). -/
def execShiftr0 (rx : RegIdx) (n : Shamt) (s : State) : Result :=
  .next (s.writeShift rx (shiftRightZeros (s.reg rx) n))

/-- shiftr1 (R100). -/
def execShiftr1 (rx : RegIdx) (n : Shamt) (s : State) : Result :=
  .next (s.writeShift rx (shiftRightOnes (s.reg rx) n))

/-- rotl (R101). -/
def execRotl (rx : RegIdx) (n : Shamt) (s : State) : Result :=
  .next (s.writeShift rx (rotateLeft (s.reg rx) n))

/-- rotr (R102). -/
def execRotr (rx : RegIdx) (n : Shamt) (s : State) : Result :=
  .next (s.writeShift rx (rotateRight (s.reg rx) n))

/-! ## Move and compare -/

/-- mov rx,ry (R103). -/
def execMovRxRy (rx ry : RegIdx) (s : State) : Result := .next (s.setReg rx (s.reg ry)).complete

/-- mov rx,sp (R104). -/
def execMovRxSp (rx : RegIdx) (s : State) : Result := .next (s.setReg rx s.sp).complete

/-- mov sp,rx: a value above 0x7FFF raises InvalidStackPointer (R105). -/
def execMovSpRx (rx : RegIdx) (s : State) : Result :=
  .next
    (if spValueOk (s.reg rx) then (s.setSp (s.reg rx)).complete else s.raise .invalidStackPointer)

/-- cmp (R106). -/
def execCmp (rx ry : RegIdx) (s : State) : Result :=
  .next (s.setFlags (s.flags.afterCmp (s.reg rx) (s.reg ry))).complete

end Sys2Proof.Machine
end

