-- ==== Sys2Proof/Machine/ControlFlow.lean ====
section
/-!
DEFINITION. The control-flow unit: jumps, calls and return (41_control_flow.md). A routine that transfers control
writes `target - size` to PC, so that the engine's addition lands on the target (10_state.md R15). `target` is
the operand word M[pc + 1]; the routine uses it only after the operand check (log entry 10).
-/

namespace Sys2Proof.Machine

open Sys2Proof.Config

/-- `pc <- (T - 2) mod 2^16`: the engine then adds 2 (41_control_flow.md R122). -/
def State.redirect (s : State) (target : Word) : State := s.setPc (target - 2#16)

/-- `jump(w)` with a condition code 0 to 14 (41_control_flow.md R122; order of checks 60_exceptions.md R265). -/
def State.jump (s : State) (k : Cond) (target : Word) : State :=
  if operandOk s.pc then
    if k.holds s.flags then
      if targetOk target then (s.redirect target).complete else s.raise .invalidTarget
    else s.complete
  else s.raise .operandOutOfRange

/-- The return address of a call: PC + 2 (41_control_flow.md R138). -/
def State.returnAddress (s : State) : Word := s.pc + 2#16

/-- `call(w)` with a condition code 0 to 14 (41_control_flow.md R138; order of checks 60_exceptions.md R265). -/
def State.call (s : State) (k : Cond) (target : Word) : State :=
  if operandOk s.pc then
    if k.holds s.flags then
      if pushOk s.sp then
        if targetOk target then
          (((s.writeWord s.sp s.returnAddress).setSp (s.sp - 1#16)).redirect target).complete
        else s.raise .invalidTarget
      else s.raise .invalidStackPointer
    else s.complete
  else s.raise .operandOutOfRange

/-- A jump- or call-family word with cond = 15: the operand check, then InvalidCondition (41_control_flow.md R121;
60_exceptions.md R265). -/
def State.reservedCondition (s : State) : State :=
  if operandOk s.pc then s.raise .invalidCondition else s.raise .operandOutOfRange

/-! ## Jumps -/

/-- jmp (R123). -/
def execJmp (target : Word) (s : State) : Result := .next (s.jump .always target)

/-- jeq (R124). -/
def execJeq (target : Word) (s : State) : Result := .next (s.jump .equal target)

/-- jne (R125). -/
def execJne (target : Word) (s : State) : Result := .next (s.jump .notEqual target)

/-- jz (R126). -/
def execJz (target : Word) (s : State) : Result := .next (s.jump .zero target)

/-- jnz (R127). -/
def execJnz (target : Word) (s : State) : Result := .next (s.jump .notZero target)

/-- jc (R128). -/
def execJc (target : Word) (s : State) : Result := .next (s.jump .carry target)

/-- jnc (R129). -/
def execJnc (target : Word) (s : State) : Result := .next (s.jump .notCarry target)

/-- jgr (R130). -/
def execJgr (target : Word) (s : State) : Result := .next (s.jump .greater target)

/-- jle (R131). -/
def execJle (target : Word) (s : State) : Result := .next (s.jump .lesser target)

/-- jeg (R132). -/
def execJeg (target : Word) (s : State) : Result := .next (s.jump .equalOrGreater target)

/-- jel (R133). -/
def execJel (target : Word) (s : State) : Result := .next (s.jump .equalOrLesser target)

/-- jov (R134). -/
def execJov (target : Word) (s : State) : Result := .next (s.jump .overflow target)

/-- jno (R135). -/
def execJno (target : Word) (s : State) : Result := .next (s.jump .notOverflow target)

/-- jdz (R136). -/
def execJdz (target : Word) (s : State) : Result := .next (s.jump .divZero target)

/-- jn (R137). -/
def execJn (target : Word) (s : State) : Result := .next (s.jump .negative target)

/-- A jump-family word with cond = 15 (R121). -/
def execJcond15 (_target : Word) (s : State) : Result := .next s.reservedCondition

/-! ## Calls -/

/-- call (R139). -/
def execCall (target : Word) (s : State) : Result := .next (s.call .always target)

/-- ceq (R140). -/
def execCeq (target : Word) (s : State) : Result := .next (s.call .equal target)

/-- cne (R141). -/
def execCne (target : Word) (s : State) : Result := .next (s.call .notEqual target)

/-- cz (R142). -/
def execCz (target : Word) (s : State) : Result := .next (s.call .zero target)

/-- cnz (R143). -/
def execCnz (target : Word) (s : State) : Result := .next (s.call .notZero target)

/-- cc (R144). -/
def execCc (target : Word) (s : State) : Result := .next (s.call .carry target)

/-- cnc (R145). -/
def execCnc (target : Word) (s : State) : Result := .next (s.call .notCarry target)

/-- cgr (R146). -/
def execCgr (target : Word) (s : State) : Result := .next (s.call .greater target)

/-- cle (R147). -/
def execCle (target : Word) (s : State) : Result := .next (s.call .lesser target)

/-- ceg (R148). -/
def execCeg (target : Word) (s : State) : Result := .next (s.call .equalOrGreater target)

/-- cel (R149). -/
def execCel (target : Word) (s : State) : Result := .next (s.call .equalOrLesser target)

/-- cov (R150). -/
def execCov (target : Word) (s : State) : Result := .next (s.call .overflow target)

/-- cno (R151). -/
def execCno (target : Word) (s : State) : Result := .next (s.call .notOverflow target)

/-- cdz (R152). -/
def execCdz (target : Word) (s : State) : Result := .next (s.call .divZero target)

/-- cn (R153). -/
def execCn (target : Word) (s : State) : Result := .next (s.call .negative target)

/-- A call-family word with cond = 15 (R121). -/
def execCcond15 (_target : Word) (s : State) : Result := .next s.reservedCondition

/-! ## Return -/

/-- rts (R154): the return address is the word above SP; `pc <- ret - 1`, and the engine then adds 1. -/
def execRts (s : State) : Result :=
  .next
    (if rtsOk s.sp then
      if targetOk (s.readWord (s.sp + 1#16)) then
        ((s.setPc (s.readWord (s.sp + 1#16) - 1#16)).setSp (s.sp + 1#16)).complete
      else s.raise .invalidTarget
    else s.raise .invalidStackPointer)

end Sys2Proof.Machine
end

