-- ==== Sys2Proof/Machine/IoSystem.lean ====
section
/-!
DEFINITION. The I/O hooks, halt, breakpoint and the optional ICMC extras (43_io_system.md).
-/

namespace Sys2Proof.Machine

open Sys2Proof.Config

/-- What inchar does with the hook's answer: the key zero-extended into rx, or IOFault(input) (R192). -/
def State.takeKey (s : State) (rx : RegIdx) (res : InputAnswer) : State :=
  match res with
  | .key v => (s.setReg rx (v.setWidth 16)).complete
  | .fault => s.raise .ioFaultInput

/-- inchar: the input hook is called once (R190, R192). -/
def execInchar (rx : RegIdx) (s : State) : Result := .next (s.callInput.takeKey rx s.hooks.nextInput)

/-- What outchar does with the hook's answer (R193). -/
def State.takeAnswer (s : State) (res : OutputAnswer) : State :=
  match res with
  | .ok => s.complete
  | .fault => s.raise .ioFaultOutput

/-- outchar: the output hook gets both 16-bit values; the event is made whatever it answers (R191, R193). -/
def execOutchar (rx ry : RegIdx) (s : State) : Result :=
  .next ((s.callOutput (s.reg rx) (s.reg ry)).takeAnswer s.hooks.nextOutput)

/-- PC moves back by one, so that the engine's addition leaves it on the same word (R194). -/
def State.stayOnWord (s : State) : State := s.setPc (s.pc - 1#16)

/-- halt (R194). -/
def execHalt (s : State) : Result := .next (s.stayOnWord.stop .halt)

/-- breakp: PC passes it when BREAKP_ADVANCES, else stays (R195). -/
def execBreakp (s : State) : Result :=
  .next ((if s.params.breakpAdvances then s else s.stayOnWord).stop .breakpoint)

/-- nop (R196). Whether the table has it is the decoder's check (log entry 20). -/
def execNop (s : State) : Result := .next s.complete

/-- setc (R197). -/
def execSetc (s : State) : Result := .next (s.setFlags { s.flags with carry := true }).complete

/-- clearc (R198). -/
def execClearc (s : State) : Result := .next (s.setFlags { s.flags with carry := false }).complete

end Sys2Proof.Machine
end

