-- ==== Sys2Proof/Machine/MemoryStack.lean ====
section
/-!
DEFINITION. The memory and stack unit: push, pop, loads and stores (42_memory_stack.md). `addr` and `imm` are the
operand word M[pc + 1]; a routine uses it only after the operand check (log entry 10).
-/

namespace Sys2Proof.Machine

open Sys2Proof.Config

/-! ## Stack (42_memory_stack.md R170 to R174) -/

/-- A push of `v`: written at SP, then SP decrements (R170, R171). -/
def State.push (s : State) (v : Word) : State :=
  if pushOk s.sp then ((s.writeWord s.sp v).setSp (s.sp - 1#16)).complete else s.raise .invalidStackPointer

/-- The word a pop reads: SP increments, then M[SP] (R170, R173). -/
def State.poppedWord (s : State) : Word := s.readWord (s.sp + 1#16)

/-- push rx (R171). -/
def execPushRx (rx : RegIdx) (s : State) : Result := .next (s.push (s.reg rx))

/-- push fr (R172). -/
def execPushFr (s : State) : Result := .next (s.push (s.flags.image s.params.flagLayout))

/-- pop rx (R173). -/
def execPopRx (rx : RegIdx) (s : State) : Result :=
  .next
    (if popOk s.sp then ((s.setSp (s.sp + 1#16)).setReg rx s.poppedWord).complete
     else s.raise .invalidStackPointer)

/-- pop fr (R174). -/
def execPopFr (s : State) : Result :=
  .next
    (if popOk s.sp then
      ((s.setSp (s.sp + 1#16)).setFlags (Flags.fromImage s.params.flagLayout s.poppedWord)).complete
     else s.raise .invalidStackPointer)

/-! ## Loads and stores (42_memory_stack.md R175 to R180) -/

/-- A load from `a` after `check_data(a)` (R175). -/
def State.loadFrom (s : State) (rx : RegIdx) (a : Word) : State :=
  if dataOk a then (s.setReg rx (s.readWord a)).complete else s.raise .invalidAddress

/-- A store of `v` to `a` after `check_data(a)` (R175). -/
def State.storeTo (s : State) (a v : Word) : State :=
  if dataOk a then (s.writeWord a v).complete else s.raise .invalidAddress

/-- load (R176). -/
def execLoad (rx : RegIdx) (addr : Word) (s : State) : Result :=
  .next (if operandOk s.pc then s.loadFrom rx addr else s.raise .operandOutOfRange)

/-- store (R177). -/
def execStore (rx : RegIdx) (addr : Word) (s : State) : Result :=
  .next (if operandOk s.pc then s.storeTo addr (s.reg rx) else s.raise .operandOutOfRange)

/-- loadn: the raw operand word, no address check (R178). -/
def execLoadn (rx : RegIdx) (imm : Word) (s : State) : Result :=
  .next (if operandOk s.pc then (s.setReg rx imm).complete else s.raise .operandOutOfRange)

/-- loadi (R179). -/
def execLoadi (rx ry : RegIdx) (s : State) : Result := .next (s.loadFrom rx (s.reg ry))

/-- storei: rx holds the address, ry the value (R180). -/
def execStorei (rx ry : RegIdx) (s : State) : Result := .next (s.storeTo (s.reg rx) (s.reg ry))

end Sys2Proof.Machine
end

