-- ==== Sys2Proof/Machine/Dispatch.lean ====
section
/-! DEFINITION. The routine of each opcode-table entry: one arm per constructor of Instr. -/

namespace Sys2Proof.Machine

def exec (i : Instr) (s : State) : Host.Outcome State Fault Refusal :=
  match i with
  | .add rx ry rz => Sys2Proof.Machine.execAdd rx ry rz s
  | .addc rx ry rz => Sys2Proof.Machine.execAddc rx ry rz s
  | .sub rx ry rz => Sys2Proof.Machine.execSub rx ry rz s
  | .subc rx ry rz => Sys2Proof.Machine.execSubc rx ry rz s
  | .mult rx ry rz c => Sys2Proof.Machine.execMult rx ry rz c s
  | .div rx ry rz c => Sys2Proof.Machine.execDiv rx ry rz c s
  | .mod rx ry rz c => Sys2Proof.Machine.execMod rx ry rz c s
  | .inc rx => Sys2Proof.Machine.execInc rx s
  | .dec rx => Sys2Proof.Machine.execDec rx s
  | .and rx ry rz c => Sys2Proof.Machine.execAnd rx ry rz c s
  | .or rx ry rz c => Sys2Proof.Machine.execOr rx ry rz c s
  | .xor rx ry rz c => Sys2Proof.Machine.execXor rx ry rz c s
  | .not rx ry => Sys2Proof.Machine.execNot rx ry s
  | .shiftl0 rx n => Sys2Proof.Machine.execShiftl0 rx n s
  | .shiftl1 rx n => Sys2Proof.Machine.execShiftl1 rx n s
  | .shiftr0 rx n => Sys2Proof.Machine.execShiftr0 rx n s
  | .shiftr1 rx n => Sys2Proof.Machine.execShiftr1 rx n s
  | .rotl rx n => Sys2Proof.Machine.execRotl rx n s
  | .rotr rx n => Sys2Proof.Machine.execRotr rx n s
  | .movRxRy rx ry => Sys2Proof.Machine.execMovRxRy rx ry s
  | .movRxSp rx => Sys2Proof.Machine.execMovRxSp rx s
  | .movSpRx rx => Sys2Proof.Machine.execMovSpRx rx s
  | .cmp rx ry => Sys2Proof.Machine.execCmp rx ry s
  | .jmp target => Sys2Proof.Machine.execJmp target s
  | .jeq target => Sys2Proof.Machine.execJeq target s
  | .jne target => Sys2Proof.Machine.execJne target s
  | .jz target => Sys2Proof.Machine.execJz target s
  | .jnz target => Sys2Proof.Machine.execJnz target s
  | .jc target => Sys2Proof.Machine.execJc target s
  | .jnc target => Sys2Proof.Machine.execJnc target s
  | .jgr target => Sys2Proof.Machine.execJgr target s
  | .jle target => Sys2Proof.Machine.execJle target s
  | .jeg target => Sys2Proof.Machine.execJeg target s
  | .jel target => Sys2Proof.Machine.execJel target s
  | .jov target => Sys2Proof.Machine.execJov target s
  | .jno target => Sys2Proof.Machine.execJno target s
  | .jdz target => Sys2Proof.Machine.execJdz target s
  | .jn target => Sys2Proof.Machine.execJn target s
  | .jcond15 target => Sys2Proof.Machine.execJcond15 target s
  | .call target => Sys2Proof.Machine.execCall target s
  | .ceq target => Sys2Proof.Machine.execCeq target s
  | .cne target => Sys2Proof.Machine.execCne target s
  | .cz target => Sys2Proof.Machine.execCz target s
  | .cnz target => Sys2Proof.Machine.execCnz target s
  | .cc target => Sys2Proof.Machine.execCc target s
  | .cnc target => Sys2Proof.Machine.execCnc target s
  | .cgr target => Sys2Proof.Machine.execCgr target s
  | .cle target => Sys2Proof.Machine.execCle target s
  | .ceg target => Sys2Proof.Machine.execCeg target s
  | .cel target => Sys2Proof.Machine.execCel target s
  | .cov target => Sys2Proof.Machine.execCov target s
  | .cno target => Sys2Proof.Machine.execCno target s
  | .cdz target => Sys2Proof.Machine.execCdz target s
  | .cn target => Sys2Proof.Machine.execCn target s
  | .ccond15 target => Sys2Proof.Machine.execCcond15 target s
  | .rts => Sys2Proof.Machine.execRts s
  | .pushRx rx => Sys2Proof.Machine.execPushRx rx s
  | .pushFr => Sys2Proof.Machine.execPushFr s
  | .popRx rx => Sys2Proof.Machine.execPopRx rx s
  | .popFr => Sys2Proof.Machine.execPopFr s
  | .load rx addr => Sys2Proof.Machine.execLoad rx addr s
  | .store rx addr => Sys2Proof.Machine.execStore rx addr s
  | .loadn rx imm => Sys2Proof.Machine.execLoadn rx imm s
  | .loadi rx ry => Sys2Proof.Machine.execLoadi rx ry s
  | .storei rx ry => Sys2Proof.Machine.execStorei rx ry s
  | .inchar rx => Sys2Proof.Machine.execInchar rx s
  | .outchar rx ry => Sys2Proof.Machine.execOutchar rx ry s
  | .halt => Sys2Proof.Machine.execHalt s
  | .breakp => Sys2Proof.Machine.execBreakp s
  | .nop => Sys2Proof.Machine.execNop s
  | .setc => Sys2Proof.Machine.execSetc s
  | .clearc => Sys2Proof.Machine.execClearc s

end Sys2Proof.Machine
end

