-- ==== Sys2Proof/Machine/Step.lean ====
section
/-! DEFINITION. The step (44_execution_engine.md R210), and how an instruction is put where it fetches. -/

namespace Sys2Proof.Machine

/-- `step()`: PCOutOfRange at PC ≥ MAX_ADDR; else the instruction at PC is decoded, UnknownInstruction where the
table has no entry; else its routine runs and the engine advances PC and the counter, whatever the routine
answered (44_execution_engine.md R210 to R215). -/
def step (s : State) : Host.Outcome State Fault Refusal :=
  if fetchOk s.pc then
    match s.fetch with
    | some i =>
      match exec i s with
      | .next t => .next (t.retire i.size)
      | .fault r => .fault r
      | .refused r => .refused r
    | none => .next s.faultUnknown
  else .next s.faultPcOutOfRange

/-- The words of `w` put at PC in the live memory, as an image load would leave them, and ICMC_EXTRAS set when
the opcode is one it adds: the table then has that entry (log entry 8). At a PC that no step fetches at
there is no place to put them. -/
def State.withFetchWord (s : State) (nbits w : Nat) : State :=
  if fetchOk s.pc then
    { s with
      live := (s.live.writeWord s.pc (tableFirst nbits w)).writeWord (s.pc + 1#16) (tableSecond nbits w)
      params :=
        { s.params with
          icmcExtras := s.params.icmcExtras || opcodeField (tableFirst nbits w) == 0#6 ||
            opcodeField (tableFirst nbits w) == 8#6 } }
  else s

end Sys2Proof.Machine
end

