-- ==== Sys2Proof/Machine/Disassembler.lean ====
section
/-!
DEFINITION. The disassembler: a pure query on the live memory, by the same opcode table as execution
(45_disassembler.md), and the assembly text of an instruction (30_encoding.md R64).
-/

namespace Sys2Proof.Machine

open Sys2Proof.Config

/-! ## Operand classification (45_disassembler.md R240, R241) -/

/-- `two_word(a)`: the opcode of M[a] is in the table with size 2 (R240). -/
def Memory.twoWord (m : Memory) (extras : Bool) (a : Nat) : Bool :=
  opcodeSize extras (opcodeField (m.readWord (BitVec.ofNat 16 a))).toNat == some 2

/-- `is_operand(loc)`, the lookbehind predicate (R240). -/
def Memory.isOperand (m : Memory) (extras : Bool) : Nat → Bool
  | 0 => false
  | a + 1 => m.twoWord extras a && !m.isOperand extras a

/-- `k(loc)`: how many consecutive words before loc are 2-word opcodes (R241, the parity form). -/
def Memory.chainLength (m : Memory) (extras : Bool) : Nat → Nat
  | 0 => 0
  | a + 1 => if m.twoWord extras a then m.chainLength extras a + 1 else 0

/-- The states of the forward machine (R241). -/
inductive ScanState where
  | expectOpcode
  | expectOperand
deriving DecidableEq, Repr

/-- One word read by the forward machine (R241). -/
def Memory.scanWord (m : Memory) (extras : Bool) (st : ScanState) (a : Nat) : ScanState :=
  match st with
  | .expectOpcode => if m.twoWord extras a then .expectOperand else .expectOpcode
  | .expectOperand => .expectOpcode

/-- The forward machine's state at loc, started at address 0 (R241). -/
def Memory.scan (m : Memory) (extras : Bool) (loc : Nat) : ScanState :=
  (List.range loc).foldl (m.scanWord extras) .expectOpcode

/-! ## Text -/

/-- `dec`: the decimal form (45_disassembler.md R243). -/
def decText (n : Nat) : String := Nat.repr n

/-- `literal(w)` (R243). -/
def literalText (w : Word) : String :=
  if w.getLsbD 15 then "#" ++ decText w.toNat ++ " (-" ++ decText (65536 - w.toNat) ++ ")"
  else "#" ++ decText w.toNat

/-- `r0` to `r7` (R244). -/
def regText (r : RegIdx) : String := "r" ++ decText r.toNat

/-- A mnemonic with one register. -/
def text1 (mn : String) (rx : RegIdx) : String := mn ++ " " ++ regText rx

/-- A mnemonic with two registers. -/
def text2 (mn : String) (rx ry : RegIdx) : String := text1 mn rx ++ ", " ++ regText ry

/-- A mnemonic with three registers. -/
def text3 (mn : String) (rx ry rz : RegIdx) : String := text2 mn rx ry ++ ", " ++ regText rz

/-- A shift or rotate. -/
def textShift (mn : String) (rx : RegIdx) (n : Shamt) : String := text1 mn rx ++ ", #" ++ decText n.toNat

/-- The mnemonic generator of each table entry, on the opcode word alone (45_disassembler.md R244). -/
def mnemonicText : Instr → String
  | .add rx ry rz => text3 "add" rx ry rz
  | .addc rx ry rz => text3 "addc" rx ry rz
  | .sub rx ry rz => text3 "sub" rx ry rz
  | .subc rx ry rz => text3 "subc" rx ry rz
  | .mult rx ry rz _ => text3 "mult" rx ry rz
  | .div rx ry rz _ => text3 "div" rx ry rz
  | .mod rx ry rz _ => text3 "mod" rx ry rz
  | .inc rx => text1 "inc" rx
  | .dec rx => text1 "dec" rx
  | .and rx ry rz _ => text3 "and" rx ry rz
  | .or rx ry rz _ => text3 "or" rx ry rz
  | .xor rx ry rz _ => text3 "xor" rx ry rz
  | .not rx ry => text2 "not" rx ry
  | .shiftl0 rx n => textShift "shiftl0" rx n
  | .shiftl1 rx n => textShift "shiftl1" rx n
  | .shiftr0 rx n => textShift "shiftr0" rx n
  | .shiftr1 rx n => textShift "shiftr1" rx n
  | .rotl rx n => textShift "rotl" rx n
  | .rotr rx n => textShift "rotr" rx n
  | .movRxRy rx ry => text2 "mov" rx ry
  | .movRxSp rx => text1 "mov" rx ++ ", sp"
  | .movSpRx rx => "mov sp, " ++ regText rx
  | .cmp rx ry => text2 "cmp" rx ry
  | .jmp _ => "jmp"
  | .jeq _ => "jeq"
  | .jne _ => "jne"
  | .jz _ => "jz"
  | .jnz _ => "jnz"
  | .jc _ => "jc"
  | .jnc _ => "jnc"
  | .jgr _ => "jgr"
  | .jle _ => "jle"
  | .jeg _ => "jeg"
  | .jel _ => "jel"
  | .jov _ => "jov"
  | .jno _ => "jno"
  | .jdz _ => "jdz"
  | .jn _ => "jn"
  | .jcond15 _ => "jcond15"
  | .call _ => "call"
  | .ceq _ => "ceq"
  | .cne _ => "cne"
  | .cz _ => "cz"
  | .cnz _ => "cnz"
  | .cc _ => "cc"
  | .cnc _ => "cnc"
  | .cgr _ => "cgr"
  | .cle _ => "cle"
  | .ceg _ => "ceg"
  | .cel _ => "cel"
  | .cov _ => "cov"
  | .cno _ => "cno"
  | .cdz _ => "cdz"
  | .cn _ => "cn"
  | .ccond15 _ => "ccond15"
  | .rts => "rts"
  | .pushRx rx => text1 "push" rx
  | .pushFr => "push fr"
  | .popRx rx => text1 "pop" rx
  | .popFr => "pop fr"
  | .load rx _ => text1 "load" rx
  | .store rx _ => text1 "store" rx
  | .loadn rx _ => text1 "loadn" rx
  | .loadi rx ry => text2 "loadi" rx ry
  | .storei rx ry => text2 "storei" rx ry
  | .inchar rx => text1 "inchar" rx
  | .outchar rx ry => text2 "outchar" rx ry
  | .halt => "halt"
  | .breakp => "breakp"
  | .nop => "nop"
  | .setc => "setc"
  | .clearc => "clearc"

/-- The assembly text with the second word where R64 puts it; an absolute address is written in decimal
(30_encoding.md R64; DESIGN CHOICE, log entry 17). -/
def assemblyText (i : Instr) : String :=
  match i with
  | .load rx addr => text1 "load" rx ++ ", " ++ decText addr.toNat
  | .store rx addr => "store " ++ decText addr.toNat ++ ", " ++ regText rx
  | .loadn rx imm => text1 "loadn" rx ++ ", #" ++ decText imm.toNat
  | _ =>
    match encodeSecond i with
    | some target => mnemonicText i ++ " " ++ decText target.toNat
    | none => mnemonicText i

/-! ## The query (45_disassembler.md R242) -/

/-- The classification of a word (R242). -/
inductive WordClass where
  | raw
  | operand
  | unknown
  | instr
deriving DecidableEq, Repr

/-- `disassemble(a, raw)` at an address 0 to 0x7FFF, `none` (refused) above (R242, R245, R246, R248). It reads the
live memory and ICMC_EXTRAS only (R247). -/
def Memory.disassemble (m : Memory) (extras : Bool) (a : Word) (raw : Bool) : Option (WordClass × String) :=
  if a.toNat < memWords then
    if raw then some (.raw, literalText (m.readWord a))
    else if m.isOperand extras a.toNat then some (.operand, literalText (m.readWord a))
    else
      match decodeWord extras (m.readWord a) 0#16 with
      | .ok i => some (.instr, mnemonicText i)
      | .error _ => some (.unknown, literalText (m.readWord a))
  else none

end Sys2Proof.Machine
end

