-- ==== Sys2Proof/Machine/Surface.lean ====
section
/-!
DEFINITION. The host surface: reset, image load, edits, cancellation and run_until_halt
(44_execution_engine.md R216 to R224; 70_reset_and_hazards.md R280 to R284). Every operation happens between two
steps (20_memory.md R40).
-/

namespace Sys2Proof.Machine

open Sys2Proof.Config

/-- Why the host surface refuses an operation; the state is then unchanged. -/
inductive HostRefusal where
  /-- An image that is not exactly 65536 bytes (20_memory.md R37; decision D24). -/
  | wrongImageLength
  /-- A memory word or a query at 0x8000 or above (44_execution_engine.md R220; 45_disassembler.md R248). -/
  | noSuchWord
deriving DecidableEq, Repr

/-- `reset()`: the baseline is copied into the live memory; registers, flags, PC, SP, counter and status take
their reset values; the baseline, `running`, the hooks and the parameters stay (70_reset_and_hazards.md R280).
Reset has no outcome of its own, so the last step's answer stays too. -/
def State.hostReset (s : State) : State :=
  { s with
    regs := Vector.replicate 8 0#16
    sp := spInit
    pc := pcInit
    flags := Flags.clear
    live := s.baseline
    instructionCount := 0
    status := .idle }

/-- The memory of an image, from byte `k` on: byte `j` of the image is byte `j` of memory, so that word `a` is the
big-endian pair of the bytes 2a and 2a + 1 (20_memory.md R34). -/
def imageMemory (k : Nat) : List Byte → Memory
  | [] => []
  | b :: bs => if b = 0#8 then imageMemory (k + 1) bs else (k, b) :: imageMemory (k + 1) bs

/-- `load_image(b)`: a buffer of 65536 bytes becomes the baseline, then a reset; any other length is refused
(70_reset_and_hazards.md R284). -/
def State.loadImage (s : State) (bytes : List Byte) : Except HostRefusal State :=
  if bytes.length = imageBytes then .ok (State.hostReset { s with baseline := imageMemory 0 bytes })
  else .error .wrongImageLength

/-- The names of the seven flags, for host edits (44_execution_engine.md R220). -/
inductive FlagName where
  | equal
  | zero
  | carry
  | greater
  | lesser
  | negative
  | divZero
deriving DecidableEq, Repr

/-- The host reads one flag. -/
def Flags.get (f : Flags) : FlagName → Bool
  | .equal => f.equal
  | .zero => f.zero
  | .carry => f.carry
  | .greater => f.greater
  | .lesser => f.lesser
  | .negative => f.negative
  | .divZero => f.divZero

/-- The host writes one flag. -/
def Flags.set (f : Flags) (n : FlagName) (b : Bool) : Flags :=
  match n with
  | .equal => { f with equal := b }
  | .zero => { f with zero := b }
  | .carry => { f with carry := b }
  | .greater => { f with greater := b }
  | .lesser => { f with lesser := b }
  | .negative => { f with negative := b }
  | .divZero => { f with divZero := b }

/-- The edits a host may make at a step boundary, of any value of the field's width (10_state.md R25;
44_execution_engine.md R220). -/
inductive HostEdit where
  | writeRegister (i : RegIdx) (v : Word)
  | writeSp (v : Word)
  | writePc (v : Word)
  | writeFlag (n : FlagName) (b : Bool)
  | writeMemory (a v : Word)
  | cancel
deriving DecidableEq, Repr

/-- The effect of an edit; a memory word at 0x8000 or above is refused (44_execution_engine.md R220). -/
def State.edit (s : State) (e : HostEdit) : Except HostRefusal State :=
  match e with
  | .writeRegister i v => .ok (s.setReg i v)
  | .writeSp v => .ok (s.setSp v)
  | .writePc v => .ok (s.setPc v)
  | .writeFlag n b => .ok (s.setFlags (s.flags.set n b))
  | .writeMemory a v => if a.toNat < memWords then .ok (s.writeWord a v) else .error .noSuchWord
  | .cancel => .ok { s with running := false }

/-- The host reads a memory word, 0 to 0x7FFF (44_execution_engine.md R220). -/
def State.hostReadWord (s : State) (a : Word) : Except HostRefusal Word :=
  if a.toNat < memWords then .ok (s.readWord a) else .error .noSuchWord

/-- `disassemble(a, raw)` (44_execution_engine.md R220; 45_disassembler.md R248). -/
def State.hostDisassemble (s : State) (a : Word) (raw : Bool) : Except HostRefusal (WordClass × String) :=
  match s.live.disassemble s.params.icmcExtras a raw with
  | some answer => .ok answer
  | none => .error .noSuchWord

/-- The edits of one step boundary, in order; a refused one changes nothing. -/
def State.editAll (s : State) : List HostEdit → State
  | [] => s
  | e :: es =>
    match s.edit e with
    | .ok t => t.editAll es
    | .error _ => s.editAll es

/-- How a run ends (44_execution_engine.md R217, R224). -/
inductive RunEnd where
  | stopped (r : StopReason)
  | faulted (f : FaultRecord)
  | cancelled
deriving DecidableEq, Repr

/-- What is known of a run after finitely many step boundaries: how it ended, or that it goes on. -/
inductive RunResult where
  | ended (e : RunEnd) (s : State)
  | ongoing (s : State)
deriving DecidableEq, Repr

/-- The run has ended: `running` and the status are written (44_execution_engine.md R217). -/
def State.endRun (s : State) (status : EngineStatus) : State := { s with running := false, status := status }

/-- The loop of run_until_halt over a list of step boundaries, each with the edits the host makes there. The loop
itself has no fuel (44_execution_engine.md R217): the list is how long it is watched (log entry 14). The last
alternative, a step that answers no next state, never happens. -/
def State.runLoop (s : State) : List (List HostEdit) → RunResult
  | [] => .ongoing s
  | es :: rest =>
    if (s.editAll es).running then
      match step (s.editAll es) with
      | .next t =>
        match t.outcome with
        | .cont => t.runLoop rest
        | .stop r => .ended (.stopped r) (t.endRun .halted)
        | .fault f => .ended (.faulted f) (t.endRun .faulted)
      | _ => .ongoing (s.editAll es)
    else .ended .cancelled { s.editAll es with status := .idle }

/-- run_until_halt: `running` is set and the status becomes Running, then the loop (44_execution_engine.md
R217). Pacing is left out, as R219 says a model does (log entry 12). -/
def State.runUntilHalt (s : State) (boundaries : List (List HostEdit)) : RunResult :=
  State.runLoop { s with running := true, status := .running } boundaries

end Sys2Proof.Machine
end

