-- ==== Sys2Proof/Safety.lean ====
section
/-!
DEFINITION. The terms statements use: the invariant of a state, the frames of a routine and what counts as a
normal end of a run.
-/

namespace Sys2Proof.Machine

open Sys2Proof.Config

/-- Every byte of the live memory reads as before. -/
def KeepsMemory (s t : State) : Prop := ∀ k, t.readByte k = s.readByte k

/-- Every byte of the live memory but the two of word `a` reads as before. -/
def KeepsMemoryBut (a : Word) (s t : State) : Prop :=
  ∀ k, k ≠ 2 * a.toNat → k ≠ 2 * a.toNat + 1 → t.readByte k = s.readByte k

/-- Every general register is as before. -/
def KeepsRegs (s t : State) : Prop := ∀ i, t.reg i = s.reg i

/-- Every general register but one is as before. -/
def KeepsRegsBut (rx : RegIdx) (s t : State) : Prop := ∀ i, i ≠ rx → t.reg i = s.reg i

/-- What no routine writes: the baseline (10_state.md R17), the counter and the status, which the engine writes
after the routine (44_execution_engine.md R215, R216), `running` (10_state.md R23) and the parameters. -/
structure KeepsHostSide (s t : State) : Prop where
  baseline : t.baseline = s.baseline
  count    : t.instructionCount = s.instructionCount
  running  : t.running = s.running
  status   : t.status = s.status
  params   : t.params = s.params

/-- The frame of a routine that completes and writes at most register rx and flags: SP, PC, memory and the
hooks are as before. -/
structure OnlyRegister (rx : RegIdx) (s t : State) : Prop where
  outcome  : t.outcome = .cont
  regs     : KeepsRegsBut rx s t
  sp       : t.sp = s.sp
  pc       : t.pc = s.pc
  memory   : KeepsMemory s t
  hooks    : t.hooks = s.hooks
  hostSide : KeepsHostSide s t

/-- The frame of a routine that completes and writes at most flags. -/
structure OnlyFlags (s t : State) : Prop where
  outcome  : t.outcome = .cont
  regs     : KeepsRegs s t
  sp       : t.sp = s.sp
  pc       : t.pc = s.pc
  memory   : KeepsMemory s t
  hooks    : t.hooks = s.hooks
  hostSide : KeepsHostSide s t

/-- The frame of a routine that completes and writes at most PC. -/
structure OnlyPc (s t : State) : Prop where
  outcome  : t.outcome = .cont
  regs     : KeepsRegs s t
  sp       : t.sp = s.sp
  flags    : t.flags = s.flags
  memory   : KeepsMemory s t
  hooks    : t.hooks = s.hooks
  hostSide : KeepsHostSide s t

/-- The flags the ALU template does not write: equal, greater, lesser and div_zero (40_alu.md R81). -/
def KeepsCompareFlags (s t : State) : Prop :=
  t.flags.equal = s.flags.equal ∧ t.flags.greater = s.flags.greater ∧
  t.flags.lesser = s.flags.lesser ∧ t.flags.divZero = s.flags.divZero

/-- The zero, carry and negative flags are those of the 32-bit number `r` (40_alu.md R81): its low 16 bits are
zero, it does not fit in 16 bits, its bit 15 is set. -/
def AluFlagsOf (r : Nat) (t : State) : Prop :=
  (t.flags.zero = true ↔ r % 65536 = 0) ∧ (t.flags.carry = true ↔ 65536 ≤ r) ∧
  (t.flags.negative = true ↔ r / 32768 % 2 = 1)

/-- An ALU routine with the 32-bit result `r`: its low 16 bits are in rx, the three flags are those of `r`, and
nothing else changed (40_alu.md R80, R81). -/
def AluWrites (rx : RegIdx) (r : Nat) (s t : State) : Prop :=
  OnlyRegister rx s t ∧ (t.reg rx).toNat = r % 65536 ∧ AluFlagsOf r t ∧ KeepsCompareFlags s t

/-- The number the carry-in adds (40_alu.md R82). -/
def carryInNat (aware bit0 carry : Bool) : Nat := if aware && bit0 && carry then 1 else 0

/-- A shift or rotate with result `res`: rx holds it, flags are written only under SHIFT_WRITES_FLAGS, and
nothing else changed (40_alu.md R96). -/
def ShiftWrites (rx : RegIdx) (res : Nat) (s t : State) : Prop :=
  OnlyRegister rx s t ∧ (t.reg rx).toNat = res ∧
  (s.params.shiftWritesFlags = false → t.flags = s.flags) ∧
  (s.params.shiftWritesFlags = true →
    (t.flags.zero = true ↔ res = 0) ∧ (t.flags.negative = true ↔ 32768 ≤ res) ∧
    t.flags.carry = s.flags.carry ∧ KeepsCompareFlags s t)

/-- The state in which a routine fault leaves the machine before the engine's PC advance: nothing but the answer
differs, and the answer is the record of 60_exceptions.md R263. -/
def State.faultedWith (s : State) (k : Fault) : State :=
  { s with outcome := .fault { kind := k, addr := s.pc, word := some (s.readWord s.pc) } }

/-! ## Placed fields (30_encoding.md R63) -/

/-- A selector at bits [9:7]. -/
def at7 (r : RegIdx) : Word := r.setWidth 16 <<< 7

/-- A selector at bits [6:4]. -/
def at4 (r : RegIdx) : Word := r.setWidth 16 <<< 4

/-- A selector at bits [3:1]. -/
def at1 (r : RegIdx) : Word := r.setWidth 16 <<< 1

/-- The carry-variant bit at bit 0. -/
def at0 (c : Bool) : Word := if c then 1#16 else 0#16

/-- A shift amount at bits [3:0]. -/
def amount0 (n : Shamt) : Word := n.setWidth 16

/-! ## The truth table (41_control_flow.md R120) -/

/-- The 15 jumps, each with its first word and its test of the flags, by the truth table of 41_control_flow.md R120
and the encodings of R123 to R137. -/
def jumpTable (f : Flags) (target : Word) : List (Instr × Word × Bool) :=
  [(.jmp target, 0x0800#16, true),
   (.jeq target, 0x0840#16, f.equal),
   (.jne target, 0x0880#16, !f.equal),
   (.jz target, 0x08C0#16, f.zero),
   (.jnz target, 0x0900#16, !f.zero),
   (.jc target, 0x0940#16, f.carry),
   (.jnc target, 0x0980#16, !f.carry),
   (.jgr target, 0x09C0#16, f.greater),
   (.jle target, 0x0A00#16, f.lesser),
   (.jeg target, 0x0A40#16, f.equal || f.greater),
   (.jel target, 0x0A80#16, f.equal || f.lesser),
   (.jov target, 0x0AC0#16, f.carry),
   (.jno target, 0x0B00#16, !f.carry),
   (.jdz target, 0x0B40#16, f.divZero),
   (.jn target, 0x0B80#16, f.negative)]

/-- The 15 calls, each with its first word and its test of the flags, by the truth table of 41_control_flow.md R120
and the encodings of R139 to R153. -/
def callTable (f : Flags) (target : Word) : List (Instr × Word × Bool) :=
  [(.call target, 0x0C00#16, true),
   (.ceq target, 0x0C40#16, f.equal),
   (.cne target, 0x0C80#16, !f.equal),
   (.cz target, 0x0CC0#16, f.zero),
   (.cnz target, 0x0D00#16, !f.zero),
   (.cc target, 0x0D40#16, f.carry),
   (.cnc target, 0x0D80#16, !f.carry),
   (.cgr target, 0x0DC0#16, f.greater),
   (.cle target, 0x0E00#16, f.lesser),
   (.ceg target, 0x0E40#16, f.equal || f.greater),
   (.cel target, 0x0E80#16, f.equal || f.lesser),
   (.cov target, 0x0EC0#16, f.carry),
   (.cno target, 0x0F00#16, !f.carry),
   (.cdz target, 0x0F40#16, f.divZero),
   (.cn target, 0x0F80#16, f.negative)]

end Sys2Proof.Machine

/-! ## The spec's lists of writers -/

namespace Sys2Proof

open Sys2Proof.Machine

/-- The general register an instruction writes, of the list of 10_state.md R11. -/
def Instr.destination : Instr → Option RegIdx
  | .add rx _ _ | .addc rx _ _ | .sub rx _ _ | .subc rx _ _ => some rx
  | .mult rx _ _ _ | .div rx _ _ _ | .mod rx _ _ _ => some rx
  | .and rx _ _ _ | .or rx _ _ _ | .xor rx _ _ _ => some rx
  | .inc rx | .dec rx | .not rx _ => some rx
  | .shiftl0 rx _ | .shiftl1 rx _ | .shiftr0 rx _ | .shiftr1 rx _ | .rotl rx _ | .rotr rx _ => some rx
  | .movRxRy rx _ | .movRxSp rx => some rx
  | .popRx rx | .load rx _ | .loadn rx _ | .loadi rx _ | .inchar rx => some rx
  | _ => none

/-- FLAG_LAYOUT(f): the bit of the image that holds the named flag (10_state.md R21). -/
def Config.FlagLayout.position (l : Config.FlagLayout) : FlagName → Fin 16
  | .equal => l.equal
  | .zero => l.zero
  | .carry => l.carry
  | .greater => l.greater
  | .lesser => l.lesser
  | .negative => l.negative
  | .divZero => l.divZero

/-- The condition and target of a jump, by the truth table of 41_control_flow.md R120. -/
def Instr.jumpParts : Instr → Option (Cond × Word)
  | .jmp t => some (.always, t)
  | .jeq t => some (.equal, t)
  | .jne t => some (.notEqual, t)
  | .jz t => some (.zero, t)
  | .jnz t => some (.notZero, t)
  | .jc t => some (.carry, t)
  | .jnc t => some (.notCarry, t)
  | .jgr t => some (.greater, t)
  | .jle t => some (.lesser, t)
  | .jeg t => some (.equalOrGreater, t)
  | .jel t => some (.equalOrLesser, t)
  | .jov t => some (.overflow, t)
  | .jno t => some (.notOverflow, t)
  | .jdz t => some (.divZero, t)
  | .jn t => some (.negative, t)
  | _ => none

/-- The condition and target of a call, by the truth table of 41_control_flow.md R120. -/
def Instr.callParts : Instr → Option (Cond × Word)
  | .call t => some (.always, t)
  | .ceq t => some (.equal, t)
  | .cne t => some (.notEqual, t)
  | .cz t => some (.zero, t)
  | .cnz t => some (.notZero, t)
  | .cc t => some (.carry, t)
  | .cnc t => some (.notCarry, t)
  | .cgr t => some (.greater, t)
  | .cle t => some (.lesser, t)
  | .ceg t => some (.equalOrGreater, t)
  | .cel t => some (.equalOrLesser, t)
  | .cov t => some (.overflow, t)
  | .cno t => some (.notOverflow, t)
  | .cdz t => some (.divZero, t)
  | .cn t => some (.negative, t)
  | _ => none

/-- push, pop, call, rts and mov sp,rx write SP (10_state.md R13). -/
def Instr.writesSp (i : Instr) : Bool :=
  match i with
  | .pushRx _ | .pushFr | .popRx _ | .popFr | .rts | .movSpRx _ => true
  | _ => i.callParts.isSome

/-- store, storei, push and call write memory (20_memory.md R30). -/
def Instr.writesMemory (i : Instr) : Bool :=
  match i with
  | .store _ _ | .storei _ _ | .pushRx _ | .pushFr => true
  | _ => i.callParts.isSome

/-- The flags an instruction may write in a state, by the table of 10_state.md R19. -/
def Instr.writesFlag (i : Instr) (s : State) (n : FlagName) : Bool :=
  match i, n with
  | .popFr, _ => true
  | .cmp _ _, .equal | .cmp _ _, .greater | .cmp _ _, .lesser => true
  | .setc, .carry | .clearc, .carry => true
  | .div _ _ rz _, .divZero => s.reg rz == 0#16 || s.params.divClearsDz
  | .div _ _ rz _, .zero | .div _ _ rz _, .carry | .div _ _ rz _, .negative => s.reg rz != 0#16
  | .mod _ _ rz _, .zero | .mod _ _ rz _, .carry | .mod _ _ rz _, .negative => s.reg rz != 0#16
  | .add _ _ _, n | .addc _ _ _, n | .sub _ _ _, n | .subc _ _ _, n => isAluFlag n
  | .mult _ _ _ _, n | .and _ _ _ _, n | .or _ _ _ _, n | .xor _ _ _ _, n => isAluFlag n
  | .inc _, n | .dec _, n => isAluFlag n
  | .shiftl0 _ _, n | .shiftl1 _ _, n | .shiftr0 _ _, n => s.params.shiftWritesFlags && isShiftFlag n
  | .shiftr1 _ _, n | .rotl _ _, n | .rotr _ _, n => s.params.shiftWritesFlags && isShiftFlag n
  | _, _ => false
where
  /-- zero, carry and negative. -/
  isAluFlag : FlagName → Bool
    | .zero | .carry | .negative => true
    | _ => false
  /-- zero and negative. -/
  isShiftFlag : FlagName → Bool
    | .zero | .negative => true
    | _ => false

end Sys2Proof

/-! ## Invariant and normal end -/

namespace Sys2Proof.Machine

open Sys2Proof.Config

/-- What every step keeps: both memories in canonical form, FLAG_LAYOUT injective (10_state.md R21), SP in
[0, 0x7FFF] (R12) and PC at most 0x8000 (R14, R15). -/
structure State.Inv (s : State) : Prop where
  live     : Memory.wf s.live
  baseline : Memory.wf s.baseline
  params   : s.params.wf
  sp       : s.sp.toNat ≤ 0x7FFF
  pc       : s.pc.toNat ≤ 0x8000

/-- The step that led here answered no fault. -/
def State.faultFree (s : State) : Prop := ∀ f, s.outcome ≠ .fault f

/-- A "normal end" of a run: Stop(Halt); a fault of any step would have ended the run with that fault
(44_execution_engine.md R217, R224). -/
def RunResult.normalEnd (r : RunResult) : Prop := ∃ s, r = .ended (.stopped .halt) s

end Sys2Proof.Machine
end

