-- ==== Sys2Proof/Certificates/Slice0/Obligations.lean ====
section
/-! DEFINITION. The statements about the core for the provers. -/

open Sys2Proof Sys2Proof.Machine

/-- From every state, reset sets the eight registers and seven flags to 0, PC to 0, SP to 0x7FFE, the counter to
0 and the status to Idle, makes the live memory read as the baseline, and leaves the baseline and running
alone. Formalises R280, R281. -/
def Obligations.ResetWritesTheListedValues : Prop :=
  ∀ s : State,
    (∀ i, s.hostReset.reg i = 0#16) ∧
    (∀ n, s.hostReset.flags.get n = false) ∧
    s.hostReset.pc = 0x0000#16 ∧ s.hostReset.sp = 0x7FFE#16 ∧
    (∀ k, s.hostReset.live.readByte k = s.baseline.readByte k) ∧
    s.hostReset.baseline = s.baseline ∧ s.hostReset.instructionCount = 0 ∧
    s.hostReset.running = s.running ∧ s.hostReset.status = .idle

/-- At construction both memories read 0 everywhere, running is false and the rest is as after a reset; a step
from there answers UnknownInstruction at address 0 and moves PC to 1. Formalises R283. -/
def Obligations.ConstructionThenOneStep : Prop :=
  (∀ k, State.reset.baseline.readByte k = 0#8) ∧ (∀ k, State.reset.live.readByte k = 0#8) ∧
    State.reset.running = false ∧ State.reset.hostReset = State.reset ∧
    ∃ t, step State.reset = .next t ∧
      t.outcome = .fault { kind := .unknownInstruction, addr := 0#16, word := none } ∧ t.pc = 1#16

/-- For every state with PC below 0x7FFF the fetch is the instruction that the words M[pc] and M[pc + 1] decode
to; when the bytes at PC decode to a well-formed instruction, it is that one, and the step is its routine on
the state, then PC plus its word size modulo 2^16, the counter plus 1 and the status by its transition
table; nothing else. Derived from 30_encoding.md R54, 44_execution_engine.md R210, 44_execution_engine.md
R211, 44_execution_engine.md R215, 44_execution_engine.md R216. -/
def Obligations.StepRunsTheDecodedInstruction : Prop :=
  ∀ s : State, s.pc.toNat < 0x7FFF →
    s.fetch = (decodeWord s.params.icmcExtras (s.readWord s.pc) (s.readWord (s.pc + 1#16))).toOption ∧
    ∀ (i : Instr) (rest : List Byte), i.wf s.params.icmcExtras = true →
      decode s.params.icmcExtras s.fetchBytes = .ok (i, rest) →
      decodeWord s.params.icmcExtras (s.readWord s.pc) (s.readWord (s.pc + 1#16)) = .ok i ∧
      ∃ u t, exec i s = .next u ∧ step s = .next t ∧
        t = { u with
              pc := u.pc + BitVec.ofNat 16 i.size
              instructionCount := u.instructionCount + 1
              status := t.status } ∧
        (∀ r, u.outcome = .stop r → t.status = .halted) ∧
        (∀ f, u.outcome = .fault f → t.status = .faulted) ∧
        (u.outcome = .cont → u.status = .running → t.status = .running) ∧
        (u.outcome = .cont → u.status ≠ .running → t.status = .idle)

/-- Every step of every state answers a next state: a fault or stop of the spec is an answer recorded in it (the
model's choice, log entry 4), and no instruction is refused. Derived from 00_scope.md R8, 60_exceptions.md
R264. -/
def Obligations.EveryStepAnswersANextState : Prop :=
  ∀ s : State, ∃ t, step s = .next t

/-- At PC of 0x7FFF or above the step answers PCOutOfRange with that PC; registers, SP, PC, flags, memory and
the counter are unchanged (the status becomes Faulted, R216: log entry 24). Derived from
44_execution_engine.md R213, 44_execution_engine.md R216, 60_exceptions.md R263. -/
def Obligations.StepPastTheLastAddressFaults : Prop :=
  ∀ s : State, 0x7FFF ≤ s.pc.toNat →
    step s = .next { s with
      outcome := .fault { kind := .pcOutOfRange, addr := s.pc, word := none }
      status := .faulted }

/-- When the opcode of the word at PC has no entry, the step sets PC to PC + 1 and answers UnknownInstruction
with the old PC; nothing else changes (the status becomes Faulted, R216: log entry 24). Derived from
44_execution_engine.md R214, 44_execution_engine.md R216, 60_exceptions.md R263. -/
def Obligations.StepOnUnknownOpcodeFaults : Prop :=
  ∀ s : State, s.pc.toNat < 0x7FFF →
    opcodeSize s.params.icmcExtras (opcodeField (s.readWord s.pc)).toNat = none →
    step s = .next { s with
      pc := s.pc + 1#16
      outcome := .fault { kind := .unknownInstruction, addr := s.pc, word := none }
      status := .faulted }

/-- For every state and registers, add completes; rx holds (ry + rz) mod 65536; carry iff the sum is at least
65536, zero iff its low 16 bits are 0, negative iff bit 15 is set; the carry flag is not added; every other
register, flag, SP, PC, byte of memory and the hooks are unchanged. Formalises R83. -/
def Obligations.AddWrapsAndCarries : Prop :=
  ∀ (s : State) (rx ry rz : RegIdx),
    encodeFirst (.add rx ry rz) = 0x8000#16 ||| at7 rx ||| at4 ry ||| at1 rz ∧
    ∃ t, exec (.add rx ry rz) s = .next t ∧ AluWrites rx ((s.reg ry).toNat + (s.reg rz).toNat) s t

/-- For every state and registers, addc completes as add with 1 more when add is in CARRY_AWARE and the carry
flag was set before; flags and frame as add. Formalises R84. -/
def Obligations.AddcAddsTheCarry : Prop :=
  ∀ (s : State) (rx ry rz : RegIdx),
    encodeFirst (.addc rx ry rz) = 0x8001#16 ||| at7 rx ||| at4 ry ||| at1 rz ∧
    ∃ t, exec (.addc rx ry rz) s = .next t ∧
      AluWrites rx ((s.reg ry).toNat + (s.reg rz).toNat +
        carryInNat s.params.carryAware.add true s.flags.carry) s t

/-- For every state and registers, sub completes; rx holds (ry - rz) mod 65536; carry iff ry < rz unsigned; zero
and negative from the result; frame as add. Formalises R85. -/
def Obligations.SubWrapsAndBorrows : Prop :=
  ∀ (s : State) (rx ry rz : RegIdx),
    encodeFirst (.sub rx ry rz) = 0x8400#16 ||| at7 rx ||| at4 ry ||| at1 rz ∧
    ∃ t, exec (.sub rx ry rz) s = .next t ∧
      AluWrites rx ((2 ^ 32 + (s.reg ry).toNat - (s.reg rz).toNat) % 2 ^ 32) s t ∧
      (t.flags.carry = true ↔ (s.reg ry).toNat < (s.reg rz).toNat)

/-- For every state and registers, subc completes as sub with the carry ADDED where sub is in CARRY_AWARE; flags
from the 32-bit result; frame as add. Formalises R86. -/
def Obligations.SubcAddsTheCarry : Prop :=
  ∀ (s : State) (rx ry rz : RegIdx),
    encodeFirst (.subc rx ry rz) = 0x8401#16 ||| at7 rx ||| at4 ry ||| at1 rz ∧
    ∃ t, exec (.subc rx ry rz) s = .next t ∧
      AluWrites rx ((2 ^ 32 + (s.reg ry).toNat - (s.reg rz).toNat +
        carryInNat s.params.carryAware.sub true s.flags.carry) % 2 ^ 32) s t

/-- For every state and operands, mult completes; rx holds the low 16 bits of the exact unsigned product (plus
the carry-in where mult is in CARRY_AWARE), flags from the exact value; frame as add. Formalises R87. -/
def Obligations.MultKeepsTheLowWord : Prop :=
  ∀ (s : State) (rx ry rz : RegIdx) (c : Bool),
    encodeFirst (.mult rx ry rz c) = 0x8800#16 ||| at7 rx ||| at4 ry ||| at1 rz ||| at0 c ∧
    ∃ t, exec (.mult rx ry rz c) s = .next t ∧
      AluWrites rx ((s.reg ry).toNat * (s.reg rz).toNat +
        carryInNat s.params.carryAware.mult c s.flags.carry) s t

/-- For every state and operands, div completes: with a zero divisor it sets div_zero and changes nothing else;
otherwise rx holds the unsigned floor quotient (plus the carry-in where div is in CARRY_AWARE), zero, carry
and negative are from it, div_zero is cleared exactly under DIV_CLEARS_DZ, and nothing else changes.
Formalises R88. -/
def Obligations.DivByNonZeroAndByZero : Prop :=
  ∀ (s : State) (rx ry rz : RegIdx) (c : Bool),
    encodeFirst (.div rx ry rz c) = 0x8C00#16 ||| at7 rx ||| at4 ry ||| at1 rz ||| at0 c ∧
    (s.reg rz = 0#16 → ∃ t, exec (.div rx ry rz c) s = .next t ∧ OnlyFlags s t ∧
      t.flags = { s.flags with divZero := true }) ∧
    (s.reg rz ≠ 0#16 → ∃ t, exec (.div rx ry rz c) s = .next t ∧ OnlyRegister rx s t ∧
      (t.reg rx).toNat = ((s.reg ry).toNat / (s.reg rz).toNat +
        carryInNat s.params.carryAware.div c s.flags.carry) % 65536 ∧
      AluFlagsOf ((s.reg ry).toNat / (s.reg rz).toNat +
        carryInNat s.params.carryAware.div c s.flags.carry) t ∧
      t.flags.equal = s.flags.equal ∧ t.flags.greater = s.flags.greater ∧
      t.flags.lesser = s.flags.lesser ∧
      t.flags.divZero = (s.flags.divZero && !s.params.divClearsDz))

/-- For every state and operands with a non-zero divisor, mod completes with the unsigned remainder (plus the
carry-in where mod is in CARRY_AWARE) in rx and the flags from it; with a zero divisor it raises ModByZero
and writes nothing; frame as add, so div_zero is never written. Formalises R89. -/
def Obligations.ModByNonZeroAndByZero : Prop :=
  ∀ (s : State) (rx ry rz : RegIdx) (c : Bool),
    encodeFirst (.mod rx ry rz c) = 0x9400#16 ||| at7 rx ||| at4 ry ||| at1 rz ||| at0 c ∧
    (s.reg rz = 0#16 → exec (.mod rx ry rz c) s = .next (s.faultedWith .modByZero)) ∧
    (s.reg rz ≠ 0#16 → ∃ t, exec (.mod rx ry rz c) s = .next t ∧
      AluWrites rx ((s.reg ry).toNat % (s.reg rz).toNat +
        carryInNat s.params.carryAware.mod c s.flags.carry) s t)

/-- For every state and register, inc and dec complete; rx holds rx + 1 or rx - 1 modulo 65536, the flags are
those of the 32-bit result, and nothing else changes. Formalises R90, R91. -/
def Obligations.IncAndDecWrap : Prop :=
  ∀ (s : State) (rx : RegIdx),
    encodeFirst (.inc rx) = 0x9000#16 ||| at7 rx ∧ encodeFirst (.dec rx) = 0x9040#16 ||| at7 rx ∧
    (∃ t, exec (.inc rx) s = .next t ∧ AluWrites rx ((s.reg rx).toNat + 1) s t) ∧
    (∃ t, exec (.dec rx) s = .next t ∧ AluWrites rx ((2 ^ 32 + (s.reg rx).toNat - 1) % 2 ^ 32) s t)

/-- For every state and operands, and, or and xor complete; rx holds the bitwise result (plus the carry-in where
the operation is in CARRY_AWARE), zero, carry and negative are from it, and nothing else changes. Formalises
R92, R93, R94. -/
def Obligations.BitwiseLogicWritesFlags : Prop :=
  ∀ (s : State) (rx ry rz : RegIdx) (c : Bool),
    encodeFirst (.and rx ry rz c) = 0x4800#16 ||| at7 rx ||| at4 ry ||| at1 rz ||| at0 c ∧
    encodeFirst (.or rx ry rz c) = 0x4C00#16 ||| at7 rx ||| at4 ry ||| at1 rz ||| at0 c ∧
    encodeFirst (.xor rx ry rz c) = 0x5000#16 ||| at7 rx ||| at4 ry ||| at1 rz ||| at0 c ∧
    (∃ t, exec (.and rx ry rz c) s = .next t ∧
      AluWrites rx (((s.reg ry).toNat &&& (s.reg rz).toNat) +
        carryInNat s.params.carryAware.and c s.flags.carry) s t) ∧
    (∃ t, exec (.or rx ry rz c) s = .next t ∧
      AluWrites rx (((s.reg ry).toNat ||| (s.reg rz).toNat) +
        carryInNat s.params.carryAware.or c s.flags.carry) s t) ∧
    (∃ t, exec (.xor rx ry rz c) s = .next t ∧
      AluWrites rx (((s.reg ry).toNat ^^^ (s.reg rz).toNat) +
        carryInNat s.params.carryAware.xor c s.flags.carry) s t)

/-- For every state and registers, not completes; rx holds the complement of ry, and no flag and nothing else
changes. Formalises R95. -/
def Obligations.NotComplementsWithoutFlags : Prop :=
  ∀ (s : State) (rx ry : RegIdx),
    encodeFirst (.not rx ry) = 0x5400#16 ||| at7 rx ||| at4 ry ∧
    ∃ t, exec (.not rx ry) s = .next t ∧ OnlyRegister rx s t ∧
      (t.reg rx).toNat = 65535 - (s.reg ry).toNat ∧ t.flags = s.flags

/-- For every state, register and amount 0 to 15, each shift completes; rx holds rx times 2^n modulo 65536 with
zeros or ones in the low n bits, or rx divided by 2^n with zeros or ones in the high n bits; zero and
negative are written only under SHIFT_WRITES_FLAGS; nothing else changes. Formalises R97, R98, R99, R100. -/
def Obligations.ShiftsFillWithZerosOrOnes : Prop :=
  ∀ (s : State) (rx : RegIdx) (n : Shamt),
    encodeFirst (.shiftl0 rx n) = 0x4000#16 ||| at7 rx ||| amount0 n ∧
    encodeFirst (.shiftl1 rx n) = 0x4010#16 ||| at7 rx ||| amount0 n ∧
    encodeFirst (.shiftr0 rx n) = 0x4020#16 ||| at7 rx ||| amount0 n ∧
    encodeFirst (.shiftr1 rx n) = 0x4030#16 ||| at7 rx ||| amount0 n ∧
    (∃ t, exec (.shiftl0 rx n) s = .next t ∧
      ShiftWrites rx ((s.reg rx).toNat * 2 ^ n.toNat % 65536) s t) ∧
    (∃ t, exec (.shiftl1 rx n) s = .next t ∧
      ShiftWrites rx (((s.reg rx).toNat * 2 ^ n.toNat + (2 ^ n.toNat - 1)) % 65536) s t) ∧
    (∃ t, exec (.shiftr0 rx n) s = .next t ∧
      ShiftWrites rx ((s.reg rx).toNat / 2 ^ n.toNat) s t) ∧
    (∃ t, exec (.shiftr1 rx n) s = .next t ∧
      ShiftWrites rx ((s.reg rx).toNat / 2 ^ n.toNat + (65536 - 65536 / 2 ^ n.toNat)) s t)

/-- For every state, register and amount 0 to 15, rotl and rotr complete with the rotated value in rx (n = 0
leaves it), flags only under SHIFT_WRITES_FLAGS, nothing else changed; modes 5 and 7 decode to the same
instructions. Formalises R101, R102. -/
def Obligations.RotatesKeepEveryBit : Prop :=
  ∀ (s : State) (rx : RegIdx) (n : Shamt) (extras : Bool) (imm : Word),
    encodeFirst (.rotl rx n) = 0x4040#16 ||| at7 rx ||| amount0 n ∧
    encodeFirst (.rotr rx n) = 0x4060#16 ||| at7 rx ||| amount0 n ∧
    decodeWord extras (0x4050#16 ||| at7 rx ||| amount0 n) imm = .ok (.rotl rx n) ∧
    decodeWord extras (0x4070#16 ||| at7 rx ||| amount0 n) imm = .ok (.rotr rx n) ∧
    (∃ t, exec (.rotl rx n) s = .next t ∧
      ShiftWrites rx ((s.reg rx).toNat * 2 ^ n.toNat % 65536 +
        (s.reg rx).toNat / 2 ^ (16 - n.toNat)) s t) ∧
    (∃ t, exec (.rotr rx n) s = .next t ∧
      ShiftWrites rx ((s.reg rx).toNat / 2 ^ n.toNat +
        (s.reg rx).toNat * 2 ^ (16 - n.toNat) % 65536) s t)

/-- For every state and registers, the two moves complete; rx holds ry or SP; no flag and nothing else changes;
movmode 0b10 is mov rx,ry and the ry field of mov rx,sp is ignored. Formalises R103, R104. -/
def Obligations.MovesIntoARegister : Prop :=
  ∀ (s : State) (rx ry : RegIdx) (extras : Bool) (imm : Word),
    encodeFirst (.movRxRy rx ry) = 0xCC00#16 ||| at7 rx ||| at4 ry ∧
    decodeWord extras (0xCC02#16 ||| at7 rx ||| at4 ry) imm = .ok (.movRxRy rx ry) ∧
    decodeWord extras (0xCC01#16 ||| at7 rx ||| at4 ry) imm = .ok (.movRxSp rx) ∧
    (∃ t, exec (.movRxRy rx ry) s = .next t ∧ OnlyRegister rx s t ∧ t.reg rx = s.reg ry ∧
      t.flags = s.flags) ∧
    (∃ t, exec (.movRxSp rx) s = .next t ∧ OnlyRegister rx s t ∧ t.reg rx = s.sp ∧ t.flags = s.flags)

/-- For every state and register: a value of at most 0x7FFF becomes SP and nothing else changes; a larger one
raises InvalidStackPointer and changes nothing. Formalises R105. -/
def Obligations.MovIntoSpChecksItsValue : Prop :=
  ∀ (s : State) (rx ry : RegIdx) (extras : Bool) (imm : Word),
    decodeWord extras (0xCC03#16 ||| at7 rx ||| at4 ry) imm = .ok (.movSpRx rx) ∧
    ((s.reg rx).toNat ≤ 0x7FFF → ∃ t, exec (.movSpRx rx) s = .next t ∧ t.outcome = .cont ∧
      t.sp = s.reg rx ∧ t.pc = s.pc ∧ t.flags = s.flags ∧ KeepsRegs s t ∧ KeepsMemory s t ∧
      t.hooks = s.hooks ∧ KeepsHostSide s t) ∧
    (0x7FFF < (s.reg rx).toNat →
      exec (.movSpRx rx) s = .next (s.faultedWith .invalidStackPointer))

/-- For every state and registers, cmp completes; equal, greater and lesser say how rx compares with ry
unsigned, exactly one of them is set, and no other flag and nothing else changes. Formalises R106. -/
def Obligations.CmpIsUnsignedAndExclusive : Prop :=
  ∀ (s : State) (rx ry : RegIdx),
    encodeFirst (.cmp rx ry) = 0x5800#16 ||| at7 rx ||| at4 ry ∧
    ∃ t, exec (.cmp rx ry) s = .next t ∧ OnlyFlags s t ∧
      (t.flags.equal = true ↔ (s.reg rx).toNat = (s.reg ry).toNat) ∧
      (t.flags.greater = true ↔ (s.reg ry).toNat < (s.reg rx).toNat) ∧
      (t.flags.lesser = true ↔ (s.reg rx).toNat < (s.reg ry).toNat) ∧
      t.flags.zero = s.flags.zero ∧ t.flags.carry = s.flags.carry ∧
      t.flags.negative = s.flags.negative ∧ t.flags.divZero = s.flags.divZero ∧
      [t.flags.equal, t.flags.greater, t.flags.lesser].count true = 1

/-- For each of jmp, jeq, jne, jz, jnz, jc, jnc, jgr, jle, jeg, jel, jov, jno, jdz, jn, with its first word:
OperandOutOfRange when pc + 1 >= 0x7FFF; else, when its test of FR holds, InvalidTarget for a target above
0x7FFF, or PC such that the engine's addition of 2 gives the target; else PC as it was, the target
unchecked. Nothing but PC changes, and on a fault nothing. Derived from 41_control_flow.md R120,
41_control_flow.md R122, 41_control_flow.md section 2, 60_exceptions.md R265. -/
def Obligations.JumpsFollowTheTruthTable : Prop :=
  ∀ (s : State) (target : Word) (i : Instr) (first : Word) (holds : Bool),
    (i, first, holds) ∈ jumpTable s.flags target →
    encodeFirst i = first ∧ encodeSecond i = some target ∧
    (0x7FFF ≤ s.pc.toNat + 1 → exec i s = .next (s.faultedWith .operandOutOfRange)) ∧
    (s.pc.toNat + 1 < 0x7FFF → holds = true → 0x7FFF < target.toNat →
      exec i s = .next (s.faultedWith .invalidTarget)) ∧
    (s.pc.toNat + 1 < 0x7FFF → holds = true → target.toNat ≤ 0x7FFF →
      ∃ t, exec i s = .next t ∧ OnlyPc s t ∧ t.pc + 2#16 = target) ∧
    (s.pc.toNat + 1 < 0x7FFF → holds = false → ∃ t, exec i s = .next t ∧ OnlyPc s t ∧ t.pc = s.pc)

/-- For each of call, ceq, cne, cz, cnz, cc, cnc, cgr, cle, ceg, cel, cov, cno, cdz, cn, with its first word:
OperandOutOfRange; when its test holds, InvalidStackPointer, then InvalidTarget, else M[SP] = pc + 2, SP -
1, and PC such that adding 2 gives the target, with every other byte, register and flag unchanged; when it
does not hold nothing changes. Derived from 41_control_flow.md R120, 41_control_flow.md R138,
41_control_flow.md section 3, 60_exceptions.md R265. -/
def Obligations.CallsPushTheReturnAddress : Prop :=
  ∀ (s : State) (target : Word) (i : Instr) (first : Word) (holds : Bool),
    (i, first, holds) ∈ callTable s.flags target →
    encodeFirst i = first ∧ encodeSecond i = some target ∧
    (0x7FFF ≤ s.pc.toNat + 1 → exec i s = .next (s.faultedWith .operandOutOfRange)) ∧
    (s.pc.toNat + 1 < 0x7FFF → holds = true → (s.sp.toNat = 0 ∨ 0x8000 ≤ s.sp.toNat) →
      exec i s = .next (s.faultedWith .invalidStackPointer)) ∧
    (s.pc.toNat + 1 < 0x7FFF → holds = true → 0 < s.sp.toNat → s.sp.toNat < 0x8000 →
      0x7FFF < target.toNat → exec i s = .next (s.faultedWith .invalidTarget)) ∧
    (s.pc.toNat + 1 < 0x7FFF → holds = true → 0 < s.sp.toNat → s.sp.toNat < 0x8000 →
      target.toNat ≤ 0x7FFF →
      ∃ t, exec i s = .next t ∧ t.outcome = .cont ∧ t.pc + 2#16 = target ∧
        (t.readWord s.sp).toNat = s.pc.toNat + 2 ∧ KeepsMemoryBut s.sp s t ∧
        t.sp.toNat + 1 = s.sp.toNat ∧ KeepsRegs s t ∧ t.flags = s.flags ∧ t.hooks = s.hooks ∧
        KeepsHostSide s t) ∧
    (s.pc.toNat + 1 < 0x7FFF → holds = false → ∃ t, exec i s = .next t ∧ OnlyPc s t ∧ t.pc = s.pc)

/-- For every state, a jump- or call-family word with k = 15 raises InvalidCondition when its operand word is in
range and OperandOutOfRange otherwise, with nothing written: that raise is the effect the spec gives these
two reserved rows. Formalises R121. -/
def Obligations.ReservedConditionRaises : Prop :=
  ∀ (s : State) (target : Word),
    encodeFirst (.jcond15 target) = 0x0BC0#16 ∧ encodeFirst (.ccond15 target) = 0x0FC0#16 ∧
    (s.pc.toNat + 1 < 0x7FFF →
      exec (.jcond15 target) s = .next (s.faultedWith .invalidCondition) ∧
      exec (.ccond15 target) s = .next (s.faultedWith .invalidCondition)) ∧
    (0x7FFF ≤ s.pc.toNat + 1 →
      exec (.jcond15 target) s = .next (s.faultedWith .operandOutOfRange) ∧
      exec (.ccond15 target) s = .next (s.faultedWith .operandOutOfRange))

/-- For every state with SP < 0x7FFE and a stacked word of at most 0x7FFF, rts completes with PC such that
adding 1 gives that word, and SP + 1, memory and all else unchanged; SP >= 0x7FFE raises InvalidStackPointer
and a larger word InvalidTarget, with nothing written. Formalises R154. -/
def Obligations.RtsReturnsOrFaults : Prop :=
  ∀ (s : State),
    encodeFirst .rts = 0x1000#16 ∧
    (s.sp.toNat < 0x7FFE → (s.readWord (s.sp + 1#16)).toNat ≤ 0x7FFF →
      ∃ t, exec .rts s = .next t ∧ t.outcome = .cont ∧ t.pc + 1#16 = s.readWord (s.sp + 1#16) ∧
        t.sp.toNat = s.sp.toNat + 1 ∧ KeepsRegs s t ∧ t.flags = s.flags ∧ KeepsMemory s t ∧
        t.hooks = s.hooks ∧ KeepsHostSide s t) ∧
    (0x7FFE ≤ s.sp.toNat → exec .rts s = .next (s.faultedWith .invalidStackPointer)) ∧
    (s.sp.toNat < 0x7FFE → 0x7FFF < (s.readWord (s.sp + 1#16)).toNat →
      exec .rts s = .next (s.faultedWith .invalidTarget))

/-- When call target is at PC = A with 0 < SP < 0x7FFF, an rts word is at the target and the push does not
overwrite it, two steps leave PC = A + 2 and SP as before, registers and flags unchanged, and memory
unchanged outside the pushed word. Derived from 41_control_flow.md R156, 41_control_flow.md R139,
41_control_flow.md R154, 44_execution_engine.md R211. -/
def Obligations.CallThenRtsComesBack : Prop :=
  ∀ (s : State) (target : Word),
    s.pc.toNat + 1 < 0x7FFF → s.fetch = some (.call target) → 0 < s.sp.toNat → s.sp.toNat < 0x7FFF →
    target.toNat < 0x7FFF → opcodeField (s.readWord target) = 4#6 → s.sp ≠ target →
    ∃ t, Host.Core.run Sys2Proof.core 2 s = .next t ∧ t.pc.toNat = s.pc.toNat + 2 ∧ t.sp = s.sp ∧
      t.instructionCount = s.instructionCount + 2 ∧ t.outcome = .cont ∧ KeepsRegs s t ∧
      t.flags = s.flags ∧ KeepsMemoryBut s.sp s t

/-- For every state with 0 < SP < 0x8000, push rx and push fr complete: M[SP] holds rx or the flag image, SP is
one less, every other byte, register and flag is unchanged; with SP = 0 or SP >= 0x8000 both raise
InvalidStackPointer and change nothing. Formalises R171, R172. -/
def Obligations.PushWritesBelowAndDecrements : Prop :=
  ∀ (s : State) (rx : RegIdx),
    encodeFirst (.pushRx rx) = 0x1400#16 ||| at7 rx ∧ encodeFirst .pushFr = 0x1440#16 ∧
    (0 < s.sp.toNat → s.sp.toNat < 0x8000 →
      (∃ t, exec (.pushRx rx) s = .next t ∧ t.outcome = .cont ∧ t.readWord s.sp = s.reg rx ∧
        KeepsMemoryBut s.sp s t ∧ t.sp.toNat + 1 = s.sp.toNat ∧ t.pc = s.pc ∧ KeepsRegs s t ∧
        t.flags = s.flags ∧ t.hooks = s.hooks ∧ KeepsHostSide s t) ∧
      (∃ t, exec .pushFr s = .next t ∧ t.outcome = .cont ∧
        t.readWord s.sp = s.flags.image s.params.flagLayout ∧
        KeepsMemoryBut s.sp s t ∧ t.sp.toNat + 1 = s.sp.toNat ∧ t.pc = s.pc ∧ KeepsRegs s t ∧
        t.flags = s.flags ∧ t.hooks = s.hooks ∧ KeepsHostSide s t)) ∧
    ((s.sp.toNat = 0 ∨ 0x8000 ≤ s.sp.toNat) →
      exec (.pushRx rx) s = .next (s.faultedWith .invalidStackPointer) ∧
      exec .pushFr s = .next (s.faultedWith .invalidStackPointer))

/-- For every state with SP < 0x7FFF (0x7FFE included), pop rx and pop fr complete: SP is one more, rx or all
seven flags take the word at the new SP, memory and all else are unchanged; with SP >= 0x7FFF both raise
InvalidStackPointer and change nothing. Derived from 42_memory_stack.md R173, 42_memory_stack.md R174. -/
def Obligations.PopReadsAboveAndIncrements : Prop :=
  ∀ (s : State) (rx : RegIdx),
    encodeFirst (.popRx rx) = 0x1800#16 ||| at7 rx ∧ encodeFirst .popFr = 0x1840#16 ∧
    (s.sp.toNat < 0x7FFF →
      (∃ t, exec (.popRx rx) s = .next t ∧ t.outcome = .cont ∧ t.reg rx = s.readWord (s.sp + 1#16) ∧
        KeepsRegsBut rx s t ∧ t.sp.toNat = s.sp.toNat + 1 ∧ t.pc = s.pc ∧ t.flags = s.flags ∧
        KeepsMemory s t ∧ t.hooks = s.hooks ∧ KeepsHostSide s t) ∧
      (∃ t, exec .popFr s = .next t ∧ t.outcome = .cont ∧
        t.flags = Flags.fromImage s.params.flagLayout (s.readWord (s.sp + 1#16)) ∧
        KeepsRegs s t ∧ t.sp.toNat = s.sp.toNat + 1 ∧ t.pc = s.pc ∧ KeepsMemory s t ∧
        t.hooks = s.hooks ∧ KeepsHostSide s t)) ∧
    (0x7FFF ≤ s.sp.toNat →
      exec (.popRx rx) s = .next (s.faultedWith .invalidStackPointer) ∧
      exec .popFr s = .next (s.faultedWith .invalidStackPointer))

/-- For every state with 0 < SP < 0x8000, a push of rx followed by a pop into ry leaves ry with the value rx
had, SP as before, and every other register and flag unchanged. Derived from 42_memory_stack.md R170. -/
def Obligations.PushThenPopRestores : Prop :=
  ∀ (s : State) (rx ry : RegIdx), 0 < s.sp.toNat → s.sp.toNat < 0x8000 →
    ∃ u t, exec (.pushRx rx) s = .next u ∧ exec (.popRx ry) u = .next t ∧
      t.reg ry = s.reg rx ∧ t.sp = s.sp ∧ KeepsRegsBut ry s t ∧ t.flags = s.flags

/-- For every injective FLAG_LAYOUT and all flags, the image has each flag at the bit the layout gives it and 0
at every other bit, and reading the flags back gives them; for every layout and word, each flag read from
the word is its bit of it; and from every state with an injective layout and 0 < SP < 0x8000, push fr
followed by pop fr leaves the flags, SP and the registers as before. Derived from 10_state.md R21,
42_memory_stack.md R172, 42_memory_stack.md R174. -/
def Obligations.FlagImageRoundTrip : Prop :=
  (∀ (l : Config.FlagLayout) (f : Flags), l.wf →
      (∀ n, (f.image l).getLsbD (l.position n).val = f.get n) ∧
      (∀ j, j < 16 → (∀ n, (l.position n).val ≠ j) → (f.image l).getLsbD j = false) ∧
      Flags.fromImage l (f.image l) = f) ∧
    (∀ (l : Config.FlagLayout) (v : Word) (n : FlagName),
      (Flags.fromImage l v).get n = v.getLsbD (l.position n).val) ∧
    (∀ s : State, s.params.wf → 0 < s.sp.toNat → s.sp.toNat < 0x8000 →
      ∃ u t, exec .pushFr s = .next u ∧ exec .popFr u = .next t ∧
        t.flags = s.flags ∧ t.sp = s.sp ∧ KeepsRegs s t)

/-- For every state: load (operand word in range) and loadi complete with the word at the operand address or at
ry in rx when the address is below 0x7FFF, no flag and nothing else changed; an address of 0x7FFF or more
raises InvalidAddress and, first, an operand word out of range raises OperandOutOfRange, with nothing
written. Formalises R176, R179. -/
def Obligations.LoadsReadOneWord : Prop :=
  ∀ (s : State) (rx ry : RegIdx) (addr : Word),
    encodeFirst (.load rx addr) = 0xC000#16 ||| at7 rx ∧ encodeSecond (.load rx addr) = some addr ∧
    encodeFirst (.loadi rx ry) = 0xF000#16 ||| at7 rx ||| at4 ry ∧
    (s.pc.toNat + 1 < 0x7FFF → addr.toNat < 0x7FFF → ∃ t, exec (.load rx addr) s = .next t ∧
      OnlyRegister rx s t ∧ t.reg rx = s.readWord addr ∧ t.flags = s.flags) ∧
    (s.pc.toNat + 1 < 0x7FFF → 0x7FFF ≤ addr.toNat →
      exec (.load rx addr) s = .next (s.faultedWith .invalidAddress)) ∧
    (0x7FFF ≤ s.pc.toNat + 1 → exec (.load rx addr) s = .next (s.faultedWith .operandOutOfRange)) ∧
    ((s.reg ry).toNat < 0x7FFF → ∃ t, exec (.loadi rx ry) s = .next t ∧
      OnlyRegister rx s t ∧ t.reg rx = s.readWord (s.reg ry) ∧ t.flags = s.flags) ∧
    (0x7FFF ≤ (s.reg ry).toNat → exec (.loadi rx ry) s = .next (s.faultedWith .invalidAddress))

/-- For every state with the operand word in range, loadn completes with the raw operand word in rx, no flag and
nothing else changed; otherwise it raises OperandOutOfRange. Formalises R178. -/
def Obligations.LoadnTakesTheRawWord : Prop :=
  ∀ (s : State) (rx : RegIdx) (imm : Word),
    encodeFirst (.loadn rx imm) = 0xE000#16 ||| at7 rx ∧ encodeSecond (.loadn rx imm) = some imm ∧
    (s.pc.toNat + 1 < 0x7FFF → ∃ t, exec (.loadn rx imm) s = .next t ∧
      OnlyRegister rx s t ∧ t.reg rx = imm ∧ t.flags = s.flags) ∧
    (0x7FFF ≤ s.pc.toNat + 1 → exec (.loadn rx imm) s = .next (s.faultedWith .operandOutOfRange))

/-- For every state: store (operand word in range) writes rx at the operand address and storei writes ry at the
address in rx when it is below 0x7FFF; every byte outside that word, every register and flag is unchanged;
an address of 0x7FFF or more raises InvalidAddress and, first, an operand word out of range raises
OperandOutOfRange, with nothing written. Formalises R177, R180. -/
def Obligations.StoresWriteOneWord : Prop :=
  ∀ (s : State) (rx ry : RegIdx) (addr : Word),
    encodeFirst (.store rx addr) = 0xC400#16 ||| at7 rx ∧ encodeSecond (.store rx addr) = some addr ∧
    encodeFirst (.storei rx ry) = 0xF400#16 ||| at7 rx ||| at4 ry ∧
    (s.pc.toNat + 1 < 0x7FFF → addr.toNat < 0x7FFF → ∃ t, exec (.store rx addr) s = .next t ∧
      t.outcome = .cont ∧ t.readWord addr = s.reg rx ∧ KeepsMemoryBut addr s t ∧ KeepsRegs s t ∧
      t.sp = s.sp ∧ t.pc = s.pc ∧ t.flags = s.flags ∧ t.hooks = s.hooks ∧ KeepsHostSide s t) ∧
    (s.pc.toNat + 1 < 0x7FFF → 0x7FFF ≤ addr.toNat →
      exec (.store rx addr) s = .next (s.faultedWith .invalidAddress)) ∧
    (0x7FFF ≤ s.pc.toNat + 1 → exec (.store rx addr) s = .next (s.faultedWith .operandOutOfRange)) ∧
    ((s.reg rx).toNat < 0x7FFF → ∃ t, exec (.storei rx ry) s = .next t ∧
      t.outcome = .cont ∧ t.readWord (s.reg rx) = s.reg ry ∧ KeepsMemoryBut (s.reg rx) s t ∧
      KeepsRegs s t ∧ t.sp = s.sp ∧ t.pc = s.pc ∧ t.flags = s.flags ∧ t.hooks = s.hooks ∧
      KeepsHostSide s t) ∧
    (0x7FFF ≤ (s.reg rx).toNat → exec (.storei rx ry) s = .next (s.faultedWith .invalidAddress))

/-- When the store at PC writes the word right after it, the step leaves PC on that word and the next fetch
decodes the stored value: it gives an instruction with the same first word as the one the stored value
decodes to. Derived from 20_memory.md R42, 42_memory_stack.md R177. -/
def Obligations.StoreIsSeenByTheNextFetch : Prop :=
  ∀ (s : State) (rx : RegIdx) (addr : Word),
    s.pc.toNat + 1 < 0x7FFF → s.fetch = some (.store rx addr) → addr = s.pc + 2#16 →
    addr.toNat < 0x7FFF →
    ∃ t, step s = .next t ∧ t.pc = addr ∧
      (∀ i imm, decodeWord s.params.icmcExtras (s.reg rx) imm = .ok i →
        ∃ j, t.fetch = some j ∧ encodeFirst j = encodeFirst i)

/-- For every state and EVERY answer of the input hook, which is called once: a key value completes inchar with
the value zero-extended in rx and nothing else of the processor changed; a fault of the hook raises
IOFault(input) with nothing changed. That the answers are a list and a counter of calls, one answer taken
and one call counted, is the model's choice (log entry 5). Derived from 43_io_system.md R190,
43_io_system.md R192. -/
def Obligations.IncharTakesTheKeyOrFaults : Prop :=
  ∀ (s : State) (rx : RegIdx),
    encodeFirst (.inchar rx) = 0xD400#16 ||| at7 rx ∧
    (∀ v, s.hooks.nextInput = .key v → ∃ t, exec (.inchar rx) s = .next t ∧ t.outcome = .cont ∧
      (t.reg rx).toNat = v.toNat ∧ KeepsRegsBut rx s t ∧ t.sp = s.sp ∧ t.pc = s.pc ∧
      t.flags = s.flags ∧ KeepsMemory s t ∧ t.hooks = s.hooks.afterInput ∧
      KeepsHostSide s t) ∧
    (s.hooks.nextInput = .fault → ∃ t, exec (.inchar rx) s = .next t ∧
      t.outcome = .fault { kind := .ioFaultInput, addr := s.pc, word := some (s.readWord s.pc) } ∧
      KeepsRegs s t ∧ t.sp = s.sp ∧ t.pc = s.pc ∧ t.flags = s.flags ∧ KeepsMemory s t ∧
      t.hooks = s.hooks.afterInput ∧ KeepsHostSide s t)

/-- For every state and EVERY answer of the output hook, which is called once, outchar appends the event with
both full 16-bit values; on success it completes, on a fault of the hook it raises IOFault(output);
registers, SP, PC, flags and memory are unchanged in both. That the answers are a list and a counter of
calls (log entry 5) and the events a list (log entry 6) is the model's choice. Derived from 43_io_system.md
R191, 43_io_system.md R193. -/
def Obligations.OutcharMakesTheEvent : Prop :=
  ∀ (s : State) (rx ry : RegIdx),
    encodeFirst (.outchar rx ry) = 0xC800#16 ||| at7 rx ||| at4 ry ∧
    (s.hooks.nextOutput = .ok → ∃ t, exec (.outchar rx ry) s = .next t ∧ OnlyPc { s with hooks := t.hooks } t ∧
      t.pc = s.pc ∧
      t.hooks = s.hooks.afterOutput { char := s.reg rx, pos := s.reg ry } ∧
      t.hooks.outputs = s.hooks.outputs ++ [{ char := s.reg rx, pos := s.reg ry }]) ∧
    (s.hooks.nextOutput = .fault → ∃ t, exec (.outchar rx ry) s = .next t ∧
      t.outcome = .fault { kind := .ioFaultOutput, addr := s.pc, word := some (s.readWord s.pc) } ∧
      KeepsRegs s t ∧ t.sp = s.sp ∧ t.pc = s.pc ∧ t.flags = s.flags ∧ KeepsMemory s t ∧
      t.hooks = s.hooks.afterOutput { char := s.reg rx, pos := s.reg ry } ∧
      t.hooks.outputs = s.hooks.outputs ++ [{ char := s.reg rx, pos := s.reg ry }] ∧
      KeepsHostSide s t)

/-- For every state, the halt routine answers Stop(Halt) and moves PC back by one, changing nothing else; a step
on any word with opcode 15 answers Stop(Halt) and leaves PC on it, with the counter incremented. Formalises
R194. -/
def Obligations.HaltStaysOnItsWord : Prop :=
  ∀ (s : State),
    encodeFirst .halt = 0x3C00#16 ∧
    (∃ t, exec .halt s = .next t ∧ t.outcome = .stop .halt ∧ t.pc + 1#16 = s.pc ∧ KeepsRegs s t ∧
      t.sp = s.sp ∧ t.flags = s.flags ∧ KeepsMemory s t ∧ t.hooks = s.hooks ∧ KeepsHostSide s t) ∧
    (s.pc.toNat < 0x7FFF → opcodeField (s.readWord s.pc) = 15#6 →
      ∃ t, step s = .next t ∧ t.outcome = .stop .halt ∧ t.pc = s.pc ∧
        t.instructionCount = s.instructionCount + 1)

/-- For every state and parameter value, the breakp routine answers Stop(Breakpoint) and changes nothing but PC;
a step on any word with opcode 14 leaves PC one further when BREAKP_ADVANCES and on the word otherwise.
Formalises R195. -/
def Obligations.BreakpStopsAndMayAdvance : Prop :=
  ∀ (s : State),
    encodeFirst .breakp = 0x3800#16 ∧
    (∃ t, exec .breakp s = .next t ∧ t.outcome = .stop .breakpoint ∧
      (s.params.breakpAdvances = true → t.pc = s.pc) ∧
      (s.params.breakpAdvances = false → t.pc + 1#16 = s.pc) ∧ KeepsRegs s t ∧
      t.sp = s.sp ∧ t.flags = s.flags ∧ KeepsMemory s t ∧ t.hooks = s.hooks ∧ KeepsHostSide s t) ∧
    (s.pc.toNat < 0x7FFF → opcodeField (s.readWord s.pc) = 14#6 →
      ∃ t, step s = .next t ∧ t.outcome = .stop .breakpoint ∧
        t.pc = (if s.params.breakpAdvances then s.pc + 1#16 else s.pc))

/-- For every state, nop changes nothing, setc sets and clearc clears carry, and nothing else changes; with
ICMC_EXTRAS a word of opcode 0 is nop and one of opcode 8 setc or clearc by bit 9, and without it both are
unknown instructions. Formalises R196, R197, R198. -/
def Obligations.ExtrasWriteCarryOrNothing : Prop :=
  ∀ (s : State) (imm : Word),
    encodeFirst .nop = 0x0000#16 ∧ encodeFirst .setc = 0x2200#16 ∧ encodeFirst .clearc = 0x2000#16 ∧
    (∀ w : Word, opcodeField w = 0#6 ∨ opcodeField w = 8#6 →
      decodeWord false w imm = .error (.unknownInstruction (opcodeField w))) ∧
    (∀ w : Word, opcodeField w = 0#6 → decodeWord true w imm = .ok .nop) ∧
    (∀ w : Word, opcodeField w = 8#6 →
      decodeWord true w imm = .ok (if w.getLsbD 9 then .setc else .clearc)) ∧
    (∃ t, exec .nop s = .next t ∧ OnlyFlags s t ∧ t.flags = s.flags) ∧
    (∃ t, exec .setc s = .next t ∧ OnlyFlags s t ∧ t.flags = { s.flags with carry := true }) ∧
    (∃ t, exec .clearc s = .next t ∧ OnlyFlags s t ∧ t.flags = { s.flags with carry := false })

/-- For every instruction and state, a step whose routine faults leaves registers, SP, flags and both memories
as they were, PC advanced by the size, the counter by 1 and the status Faulted (R216: log entry 13); the
record holds the PC of the instruction and its word. The hooks change only on an I/O fault. Derived from
60_exceptions.md R264, 60_exceptions.md R263, 44_execution_engine.md R212, 44_execution_engine.md R216. -/
def Obligations.FaultsLeaveTheStateUnchanged : Prop :=
  ∀ (s t : State) (i : Instr) (f : FaultRecord),
    s.pc.toNat < 0x7FFF → s.fetch = some i → step s = .next t → t.outcome = .fault f →
    t = { s with
          pc := s.pc + BitVec.ofNat 16 i.size
          instructionCount := s.instructionCount + 1
          status := .faulted
          outcome := .fault f
          hooks := t.hooks } ∧
    f.addr = s.pc ∧ f.word = some (s.readWord s.pc) ∧
    (f.kind ≠ .ioFaultInput → f.kind ≠ .ioFaultOutput → t.hooks = s.hooks)

/-- For every state: a step at PC >= 0x7FFF leaves PC; an unknown opcode advances it by 1; a routine fault by
the size; otherwise a taken jump or call gives its target, one not taken PC + 2, rts the stacked word, halt
PC itself, breakp by BREAKP_ADVANCES, and every other instruction PC plus its size. Formalises R211. -/
def Obligations.NetPcChangeOfEveryStep : Prop :=
  ∀ (s t : State), step s = .next t →
    (0x7FFF ≤ s.pc.toNat → t.pc = s.pc) ∧
    (s.pc.toNat < 0x7FFF → s.fetch = none → t.pc = s.pc + 1#16) ∧
    (∀ i, s.pc.toNat < 0x7FFF → s.fetch = some i →
      ((∃ f, t.outcome = .fault f) → t.pc = s.pc + BitVec.ofNat 16 i.size) ∧
      ((∀ f, t.outcome ≠ .fault f) →
        (i.jumpParts = none → i.callParts = none → i ≠ .rts → i ≠ .halt → i ≠ .breakp →
          t.pc = s.pc + BitVec.ofNat 16 i.size) ∧
        (∀ k target, i.jumpParts = some (k, target) ∨ i.callParts = some (k, target) →
          t.pc = (if k.holds s.flags then target else s.pc + 2#16)) ∧
        (i = .rts → t.pc = s.readWord (s.sp + 1#16)) ∧
        (i = .halt → t.pc = s.pc) ∧
        (i = .breakp → t.pc = (if s.params.breakpAdvances then s.pc + 1#16 else s.pc))))

/-- For every step, whatever its outcome, the instruction counter is one more when a routine ran and unchanged
when the step faulted before one. Formalises R215. -/
def Obligations.CounterCountsRoutines : Prop :=
  ∀ (s t : State), step s = .next t →
    t.instructionCount =
      (if s.pc.toNat < 0x7FFF ∧ s.fetch.isSome = true then s.instructionCount + 1
       else s.instructionCount)

/-- For every state, a step leaves memory_baseline, running and the named parameters as they are. That the
parameters stand in State is the model's choice (log entry 3). Derived from 10_state.md R17, 10_state.md
R23, 10_state.md R24. -/
def Obligations.BaselineIsNeverMutated : Prop :=
  ∀ (s t : State), step s = .next t →
    t.baseline = s.baseline ∧ t.running = s.running ∧ t.params = s.params

/-- For every instruction but push, pop, the calls, rts and mov sp,rx, and every state, the routine leaves SP
unchanged. Derived from 10_state.md R13. -/
def Obligations.OnlyStackInstructionsWriteSp : Prop :=
  ∀ (i : Instr) (s t : State), exec i s = .next t → i.writesSp = false → t.sp = s.sp

/-- For every instruction and state, a general register that is not the instruction's destination, by the list
of R11, is unchanged; instructions with no destination change none. Derived from 10_state.md R11. -/
def Obligations.OnlyTheDestinationRegisterChanges : Prop :=
  ∀ (i : Instr) (s t : State) (r : RegIdx), exec i s = .next t → i.destination ≠ some r →
    t.reg r = s.reg r

/-- For every instruction, state and parameter value, a flag the table of flag writers does not give the
instruction is unchanged. Formalises R19. -/
def Obligations.OnlyTheListedFlagsChange : Prop :=
  ∀ (i : Instr) (s t : State) (n : FlagName), exec i s = .next t → i.writesFlag s n = false →
    t.flags.get n = s.flags.get n

/-- For every other instruction and every state, every byte of the live memory reads as before. Derived from
20_memory.md R30. -/
def Obligations.OnlyStoresPushesAndCallsWriteMemory : Prop :=
  ∀ (i : Instr) (s t : State), exec i s = .next t → i.writesMemory = false → KeepsMemory s t

/-- From PC of at most 0x7FFF, a step that answers Continue or a stop leaves PC at most 0x7FFF. Derived from
10_state.md R14, 90_conflicts.md C3. -/
def Obligations.PcStaysInRangeWithoutFault : Prop :=
  ∀ (s t : State), s.pc.toNat ≤ 0x7FFF → step s = .next t → t.faultFree → t.pc.toNat ≤ 0x7FFF

/-- From every state with both memories in canonical form inside the 32768 words, SP at most 0x7FFF, PC at most
0x8000 and an injective FLAG_LAYOUT, every step gives such a state. The canonical form is the model's choice
(log entry 2). Derived from 10_state.md R12, 10_state.md R14, 20_memory.md R31. -/
def Obligations.StepKeepsTheInvariant : Prop :=
  ∀ (s t : State), s.Inv → step s = .next t → t.Inv

/-- Both memories of the reset state are in canonical form, SP and PC are in range and the default FLAG_LAYOUT
is injective. The canonical form is the model's choice (log entry 2). Derived from 10_state.md R12,
10_state.md R14, 10_state.md R21, 20_memory.md R31, 70_reset_and_hazards.md R281. -/
def Obligations.ResetStateHasTheInvariant : Prop :=
  State.reset.Inv

/-- From canonical memories, reset, a load of any accepted image and every accepted host edit give canonical
memories, and no edit writes the baseline. The canonical form is the model's choice (log entry 2). Derived
from 44_execution_engine.md R220, 70_reset_and_hazards.md R284, 10_state.md R25. -/
def Obligations.HostOperationsKeepMemoryCanonical : Prop :=
  ∀ (s : State), Memory.wf s.live → Memory.wf s.baseline →
    (Memory.wf s.hostReset.live ∧ Memory.wf s.hostReset.baseline) ∧
    (∀ bytes t, s.loadImage bytes = .ok t → Memory.wf t.live ∧ Memory.wf t.baseline) ∧
    (∀ e t, s.edit e = .ok t → Memory.wf t.live ∧ t.baseline = s.baseline)

/-- For every instruction that the table has, with every operand at every value, decoding its words followed by
any bytes gives the instruction and those bytes. Derived from 30_encoding.md R53, 30_encoding.md R57,
30_encoding.md R63. -/
def Obligations.DecodeOfEncode : Prop :=
  ∀ (extras : Bool) (i : Instr) (rest : List Byte), i.wf extras = true →
    decode extras (bytesOfWords (encode i) ++ rest) = .ok (i, rest)

/-- For every first word and operand word, decoding answers UnknownInstruction exactly when the opcode is one of
the unassigned ones: 37 without ICMC_EXTRAS, 35 with it. Formalises R60. -/
def Obligations.ExactlyTheUnassignedOpcodesAreUnknown : Prop :=
  ∀ (w imm : Word),
    (decodeWord false w imm = .error (.unknownInstruction (opcodeField w)) ↔
      (opcodeField w).toNat ∈ [0, 1, 7, 8, 9, 10, 11, 12, 13, 17, 23, 24, 25, 26, 27, 28, 29, 30, 31,
        38, 39, 40, 41, 42, 43, 44, 45, 46, 47, 52, 54, 55, 57, 58, 59, 62, 63]) ∧
    (decodeWord true w imm = .error (.unknownInstruction (opcodeField w)) ↔
      (opcodeField w).toNat ∈ [1, 7, 9, 10, 11, 12, 13, 17, 23, 24, 25, 26, 27, 28, 29, 30, 31,
        38, 39, 40, 41, 42, 43, 44, 45, 46, 47, 52, 54, 55, 57, 58, 59, 62, 63])

/-- Ten words written bit by bit from the formats, one per family, decode to the instruction the opcode table
gives them. Derived from 30_encoding.md R53, 30_encoding.md R57. -/
def Obligations.DecodedWordsFromTheRules : Prop :=
  decodeWord false 0b1000000010100110#16 0#16 = .ok (.add 1 2 3) ∧
    decodeWord false 0b1000010010100111#16 0#16 = .ok (.subc 1 2 3) ∧
    decodeWord false 0b0100000011010001#16 0#16 = .ok (.rotl 1 1) ∧
    decodeWord false 0b1100110010000011#16 0#16 = .ok (.movSpRx 1) ∧
    decodeWord false 0b0000101001000000#16 0x0040#16 = .ok (.jeg 0x0040#16) ∧
    decodeWord false 0b0000111111000000#16 0x0040#16 = .ok (.ccond15 0x0040#16) ∧
    decodeWord false 0b0001100001000000#16 0#16 = .ok .popFr ∧
    decodeWord false 0b1110000010000000#16 0x0003#16 = .ok (.loadn 1 0x0003#16) ∧
    decodeWord false 0b1100100010100000#16 0#16 = .ok (.outchar 1 2) ∧
    decodeWord true 0b0010001000000000#16 0#16 = .ok .setc

/-- For the formats FN, F2R, F1R and F1W, FCW and FRB, push fr and pop fr, FMV and FSC, two words with the same
opcode and the same used bits decode alike. Derived from 30_encoding.md R59, 30_encoding.md R53. -/
def Obligations.IgnoredBitsDoNotMatter : Prop :=
  ∀ (extras : Bool) (w v imm : Word), opcodeField w = opcodeField v →
    ((opcodeField w).toNat ∈ [0, 4, 14, 15] → decodeWord extras w imm = decodeWord extras v imm) ∧
    ((opcodeField w).toNat ∈ [21, 22, 50, 60, 61] → w >>> 4 = v >>> 4 →
      decodeWord extras w imm = decodeWord extras v imm) ∧
    ((opcodeField w).toNat ∈ [48, 49, 53, 56] → w >>> 7 = v >>> 7 →
      decodeWord extras w imm = decodeWord extras v imm) ∧
    ((opcodeField w).toNat ∈ [2, 3, 5, 6, 36] → w >>> 6 = v >>> 6 →
      decodeWord extras w imm = decodeWord extras v imm) ∧
    ((opcodeField w).toNat ∈ [5, 6] → modeBit w = true → modeBit v = true →
      decodeWord extras w imm = decodeWord extras v imm) ∧
    ((opcodeField w).toNat = 51 → w >>> 4 = v >>> 4 → movmodeField w = movmodeField v →
      decodeWord extras w imm = decodeWord extras v imm) ∧
    ((opcodeField w).toNat = 8 → w >>> 9 = v >>> 9 →
      decodeWord extras w imm = decodeWord extras v imm)

/-- Whatever the mode bits and the second word, a decoded instruction has the word size its opcode has in the
table: 2 for the opcodes 2, 3, 48, 49 and 56, else 1. Formalises R56. -/
def Obligations.SizeDependsOnTheOpcodeAlone : Prop :=
  ∀ (extras : Bool) (w imm : Word) (i : Instr), decodeWord extras w imm = .ok i →
    opcodeSize extras (opcodeField w).toNat = some i.size ∧
    (i.size = 2 ↔ (opcodeField w).toNat ∈ [2, 3, 48, 49, 56])

/-- For every memory and value of ICMC_EXTRAS: two_word holds exactly for the opcodes 2, 3, 48, 49 and 56;
address 0 is no operand and a later word is one exactly when the word before it is two_word and no operand;
the forward machine starts in ExpectOpcode and moves by two_word; k(loc) is the number of consecutive
two_word words before loc; and at every location the three forms agree. Formalises R240, R241. -/
def Obligations.ThreeFormsOfTheLookbehindAgree : Prop :=
  ∀ (m : Memory) (extras : Bool),
    (∀ a, m.twoWord extras a = true ↔
      (opcodeField (m.readWord (BitVec.ofNat 16 a))).toNat ∈ [2, 3, 48, 49, 56]) ∧
    m.isOperand extras 0 = false ∧
    (∀ a, m.isOperand extras (a + 1) = true ↔
      m.twoWord extras a = true ∧ m.isOperand extras a = false) ∧
    m.scan extras 0 = .expectOpcode ∧
    (∀ a, m.scan extras (a + 1) = .expectOperand ↔
      m.scan extras a = .expectOpcode ∧ m.twoWord extras a = true) ∧
    ∀ loc, m.chainLength extras loc ≤ loc ∧
      (∀ a, loc - m.chainLength extras loc ≤ a → a < loc → m.twoWord extras a = true) ∧
      (m.chainLength extras loc < loc →
        m.twoWord extras (loc - m.chainLength extras loc - 1) = false) ∧
      (m.isOperand extras loc = true ↔ m.chainLength extras loc % 2 = 1) ∧
      (m.isOperand extras loc = true ↔ m.scan extras loc = .expectOperand)

/-- For every state and buffer: a length other than 65536 is refused; otherwise every baseline word a is b[2a] *
256 + b[2a+1] and the rest of the state is that of a reset over the new baseline. Formalises R284. -/
def Obligations.LoadImageFillsTheBaseline : Prop :=
  ∀ (s : State) (bytes : List Byte),
    (bytes.length ≠ 65536 → s.loadImage bytes = .error .wrongImageLength) ∧
    (bytes.length = 65536 → ∃ t, s.loadImage bytes = .ok t ∧
      t = State.hostReset { s with baseline := t.baseline } ∧
      ∀ a : Word, a.toNat < 0x8000 →
        (t.baseline.readWord a).toNat =
          (bytes.getD (2 * a.toNat) 0#8).toNat * 256 + (bytes.getD (2 * a.toNat + 1) 0#8).toNat)

/-- However long and whatever the host edits at the boundaries, a run_until_halt that ends leaves running false;
after a stop the status is Halted and the last answer that stop, after a fault Faulted and that fault, after
a cancellation Idle. Watching a run by its boundaries is the model's choice (log entry 14). Derived from
44_execution_engine.md R217, 44_execution_engine.md R216, 44_execution_engine.md R224. -/
def Obligations.RunsEndAsTheirLastStepAnswers : Prop :=
  ∀ (boundaries : List (List HostEdit)) (s t : State) (e : RunEnd),
    s.runUntilHalt boundaries = .ended e t →
    t.running = false ∧
    (∀ r, e = .stopped r → t.status = .halted ∧ t.outcome = .stop r) ∧
    (∀ f, e = .faulted f → t.status = .faulted ∧ t.outcome = .fault f) ∧
    (e = .cancelled → t.status = .idle)

/-- For every state, address and view: an address of 0x8000 or more is refused; the raw view gives (Raw,
literal); an operand gives (Operand, literal); a word with no table entry (Unknown, literal); any other word
(Instr, the mnemonic of the instruction its opcode word decodes to). The literal is # and the decimal value,
with the signed value in parentheses when bit 15 is set. That the mnemonic is made by decoding with 0 as the
operand word is log entry 22. Derived from 45_disassembler.md R242, 45_disassembler.md R243,
45_disassembler.md R245, 45_disassembler.md R246, 45_disassembler.md R248. -/
def Obligations.DisassembleClassifies : Prop :=
  (∀ w : Word, literalText w =
      if w.toNat < 0x8000 then "#" ++ Nat.repr w.toNat
      else "#" ++ Nat.repr w.toNat ++ " (-" ++ Nat.repr (65536 - w.toNat) ++ ")") ∧
    ∀ (s : State) (a : Word) (raw : Bool),
    (0x8000 ≤ a.toNat → s.live.disassemble s.params.icmcExtras a raw = none ∧
      s.hostDisassemble a raw = .error .noSuchWord) ∧
    (a.toNat < 0x8000 → ∃ c text, s.live.disassemble s.params.icmcExtras a raw = some (c, text) ∧
      s.hostDisassemble a raw = .ok (c, text) ∧
      (raw = true → c = .raw ∧ text = literalText (s.readWord a)) ∧
      (raw = false → s.live.isOperand s.params.icmcExtras a.toNat = true →
        c = .operand ∧ text = literalText (s.readWord a)) ∧
      (raw = false → s.live.isOperand s.params.icmcExtras a.toNat = false →
        opcodeSize s.params.icmcExtras (opcodeField (s.readWord a)).toNat = none →
        c = .unknown ∧ text = literalText (s.readWord a)) ∧
      (raw = false → s.live.isOperand s.params.icmcExtras a.toNat = false →
        opcodeSize s.params.icmcExtras (opcodeField (s.readWord a)).toNat ≠ none →
        ∃ i, decodeWord s.params.icmcExtras (s.readWord a) 0#16 = .ok i ∧
          c = .instr ∧ text = mnemonicText i))
end

