-- ==== Sys2Proof/Laws/Disassembler.lean ====
section
/-! SUPPORT. What the pieces of the disassembler and of the flag-register image answer. -/

namespace Sys2Proof.Machine

/-- The scan reaches address `a + 1` by scanning the word at `a` (45_disassembler.md R240). -/
theorem Memory.scan_succ (m : Memory) (extras : Bool) (a : Nat) :
    m.scan extras (a + 1) = m.scanWord extras (m.scan extras a) a := by
  simp [Memory.scan, List.range_succ]

/-- One flag's contribution to the flag-register image has its bit at the flag's position, or no
bit at all (10_state.md R21). -/
theorem flagBit_getLsbD (p : Fin 16) (b : Bool) {j : Nat} (hj : j < 16) :
    (flagBit p b).getLsbD j = (b && decide (j = p.val)) := by
  have shift : ∀ p j : Fin 16, (1#16 <<< p.val).getLsbD j.val = decide (j.val = p.val) := by decide
  cases b
  · simp [flagBit]
  · simpa [flagBit] using shift p ⟨j, hj⟩

end Sys2Proof.Machine
end

