-- ==== Sys2Proof/Laws/Encoding.lean ====
section
/-! SUPPORT. Each field of a packed first word is the operand that was packed (30_encoding.md R51 to R53). -/

namespace Sys2Proof

@[simp] theorem opcodeField_encodeF3R (op : BitVec 6) (rx ry rz : RegIdx) (c : Bool) :
    opcodeField (encodeF3R op rx ry rz c) = op := by
  unfold opcodeField encodeF3R; ext i hi; grind

@[simp] theorem rxField_encodeF3R (op : BitVec 6) (rx ry rz : RegIdx) (c : Bool) :
    rxField (encodeF3R op rx ry rz c) = rx := by
  unfold rxField encodeF3R; ext i hi; grind

@[simp] theorem ryField_encodeF3R (op : BitVec 6) (rx ry rz : RegIdx) (c : Bool) :
    ryField (encodeF3R op rx ry rz c) = ry := by
  unfold ryField encodeF3R; ext i hi; grind

@[simp] theorem rzField_encodeF3R (op : BitVec 6) (rx ry rz : RegIdx) (c : Bool) :
    rzField (encodeF3R op rx ry rz c) = rz := by
  unfold rzField encodeF3R; ext i hi; grind

@[simp] theorem carryBit_encodeF3R (op : BitVec 6) (rx ry rz : RegIdx) (c : Bool) :
    carryBit (encodeF3R op rx ry rz c) = c := by
  unfold carryBit encodeF3R; simp only [BitVec.getLsbD_append]; simp

@[simp] theorem opcodeField_encodeF2R (op : BitVec 6) (rx ry : RegIdx) :
    opcodeField (encodeF2R op rx ry) = op := by
  unfold opcodeField encodeF2R; ext i hi; grind

@[simp] theorem rxField_encodeF2R (op : BitVec 6) (rx ry : RegIdx) :
    rxField (encodeF2R op rx ry) = rx := by
  unfold rxField encodeF2R; ext i hi; grind

@[simp] theorem ryField_encodeF2R (op : BitVec 6) (rx ry : RegIdx) :
    ryField (encodeF2R op rx ry) = ry := by
  unfold ryField encodeF2R; ext i hi; grind

@[simp] theorem opcodeField_encodeFMV (op : BitVec 6) (rx ry : RegIdx) (m : BitVec 2) :
    opcodeField (encodeFMV op rx ry m) = op := by
  unfold opcodeField encodeFMV; ext i hi; grind

@[simp] theorem rxField_encodeFMV (op : BitVec 6) (rx ry : RegIdx) (m : BitVec 2) :
    rxField (encodeFMV op rx ry m) = rx := by
  unfold rxField encodeFMV; ext i hi; grind

@[simp] theorem ryField_encodeFMV (op : BitVec 6) (rx ry : RegIdx) (m : BitVec 2) :
    ryField (encodeFMV op rx ry m) = ry := by
  unfold ryField encodeFMV; ext i hi; grind

@[simp] theorem movmodeField_encodeFMV (op : BitVec 6) (rx ry : RegIdx) (m : BitVec 2) :
    movmodeField (encodeFMV op rx ry m) = m := by
  unfold movmodeField encodeFMV; ext i hi; grind

@[simp] theorem opcodeField_encodeF1 (op : BitVec 6) (rx : RegIdx) :
    opcodeField (encodeF1 op rx) = op := by
  unfold opcodeField encodeF1; ext i hi; grind

@[simp] theorem rxField_encodeF1 (op : BitVec 6) (rx : RegIdx) :
    rxField (encodeF1 op rx) = rx := by
  unfold rxField encodeF1; ext i hi; grind

@[simp] theorem opcodeField_encodeFRB (op : BitVec 6) (rx : RegIdx) (b : Bool) :
    opcodeField (encodeFRB op rx b) = op := by
  unfold opcodeField encodeFRB; ext i hi; grind

@[simp] theorem rxField_encodeFRB (op : BitVec 6) (rx : RegIdx) (b : Bool) :
    rxField (encodeFRB op rx b) = rx := by
  unfold rxField encodeFRB; ext i hi; grind

@[simp] theorem modeBit_encodeFRB (op : BitVec 6) (rx : RegIdx) (b : Bool) :
    modeBit (encodeFRB op rx b) = b := by
  unfold modeBit encodeFRB; simp only [BitVec.getLsbD_append]; simp

@[simp] theorem opcodeField_encodeFSH (op : BitVec 6) (rx : RegIdx) (m : BitVec 3) (n : Shamt) :
    opcodeField (encodeFSH op rx m n) = op := by
  unfold opcodeField encodeFSH; ext i hi; grind

@[simp] theorem rxField_encodeFSH (op : BitVec 6) (rx : RegIdx) (m : BitVec 3) (n : Shamt) :
    rxField (encodeFSH op rx m n) = rx := by
  unfold rxField encodeFSH; ext i hi; grind

@[simp] theorem shmodeField_encodeFSH (op : BitVec 6) (rx : RegIdx) (m : BitVec 3) (n : Shamt) :
    shmodeField (encodeFSH op rx m n) = m := by
  unfold shmodeField encodeFSH; ext i hi; grind

@[simp] theorem shamtField_encodeFSH (op : BitVec 6) (rx : RegIdx) (m : BitVec 3) (n : Shamt) :
    shamtField (encodeFSH op rx m n) = n := by
  unfold shamtField encodeFSH; ext i hi; grind

@[simp] theorem opcodeField_encodeFCW (op : BitVec 6) (k : BitVec 4) :
    opcodeField (encodeFCW op k) = op := by
  unfold opcodeField encodeFCW; ext i hi; grind

@[simp] theorem condField_encodeFCW (op : BitVec 6) (k : BitVec 4) :
    condField (encodeFCW op k) = k := by
  unfold condField encodeFCW; ext i hi; grind

@[simp] theorem opcodeField_encodeFN (op : BitVec 6) :
    opcodeField (encodeFN op) = op := by
  unfold opcodeField encodeFN; ext i hi; grind

@[simp] theorem opcodeField_encodeFSC (op : BitVec 6) (b : Bool) :
    opcodeField (encodeFSC op b) = op := by
  unfold opcodeField encodeFSC; ext i hi; grind

@[simp] theorem setcBit_encodeFSC (op : BitVec 6) (b : Bool) :
    setcBit (encodeFSC op b) = b := by
  unfold setcBit encodeFSC; simp only [BitVec.getLsbD_append]; simp

end Sys2Proof
end

