-- ==== Sys2Proof/Laws/Memory.lean ====
section
/-! SUPPORT. The laws of memory: read after write, canonical form kept, and the memory of an image. -/

namespace Sys2Proof.Machine

open Sys2Proof.Config

/-! ## Bytes -/

@[simp] theorem Memory.readByte_nil (k : Nat) : Memory.readByte [] k = 0#8 := rfl

theorem Memory.readByte_cons (c : Host.Cell) (m : Memory) (k : Nat) :
    Memory.readByte (c :: m) k = if c.1 = k then c.2 else m.readByte k := rfl

theorem Memory.readByte_filter (m : Memory) (k j : Nat) :
    Memory.readByte (m.filter (fun c => c.1 != k)) j = if j = k then 0#8 else m.readByte j := by
  induction m with
  | nil => simp
  | cons c m ih =>
    by_cases hc : c.1 = k
    · simp only [List.filter_cons, hc, bne_self_eq_false, Bool.false_eq_true, ↓reduceIte, ih,
        Memory.readByte_cons]
      split_ifs with h1 h2
      · rfl
      · exact absurd h2.symm h1
      · rfl
    · simp only [List.filter_cons, bne_iff_ne, ne_eq, hc, not_false_eq_true, ↓reduceIte,
        Memory.readByte_cons, ih]
      split_ifs with h1 h2 h3
      · exact absurd (h1.trans h2) hc
      · rfl
      · rfl
      · rfl

theorem Memory.readByte_insertCell (c : Host.Cell) (m : Memory) (h : ∀ d ∈ m, d.1 ≠ c.1) (j : Nat) :
    Memory.readByte (Memory.insertCell c m) j = if j = c.1 then c.2 else m.readByte j := by
  induction m with
  | nil =>
    simp only [Memory.insertCell, Memory.readByte_cons, Memory.readByte_nil]
    split_ifs with h1 h2 h2
    · rfl
    · exact absurd h1.symm h2
    · exact absurd h2.symm h1
    · rfl
  | cons d m ih =>
    have hd : d.1 ≠ c.1 := h d List.mem_cons_self
    have ih := ih fun e he => h e (List.mem_cons_of_mem _ he)
    simp only [Memory.insertCell]
    by_cases hlt : c.1 < d.1
    · rw [if_pos hlt, Memory.readByte_cons]
      split_ifs with h1 h2 h2
      · rfl
      · exact absurd h1.symm h2
      · exact absurd h2.symm h1
      · rfl
    · rw [if_neg hlt, Memory.readByte_cons, Memory.readByte_cons, ih]
      split_ifs with h1 h2
      · exact absurd (h1.trans h2) hd
      · rfl
      · rfl
      · rfl

/-- What a byte write does to every byte. -/
theorem Memory.readByte_writeByte (m : Memory) (k : Nat) (v : Byte) (j : Nat) :
    (m.writeByte k v).readByte j = if j = k then v else m.readByte j := by
  unfold Memory.writeByte
  split_ifs with hv hj hj
  · rw [Memory.readByte_filter, if_pos hj, hv]
  · rw [Memory.readByte_filter, if_neg hj]
  · rw [Memory.readByte_insertCell _ _ (by simp), if_pos hj]
  · rw [Memory.readByte_insertCell _ _ (by simp), if_neg hj, Memory.readByte_filter, if_neg hj]

/-! ## Words -/

theorem wordOfBytes_high_low (v : Word) : wordOfBytes (highByte v) (lowByte v) = v := by
  unfold wordOfBytes highByte lowByte
  ext i hi
  simp only [BitVec.getElem_append, BitVec.getElem_extractLsb', Nat.zero_add]
  split_ifs with h
  · rw [BitVec.getLsbD_eq_getElem]
  · rw [show 8 + (i - 8) = i by omega, BitVec.getLsbD_eq_getElem]

/-- What a word write does to every byte. -/
theorem Memory.readByte_writeWord (m : Memory) (a v : Word) (j : Nat) :
    (m.writeWord a v).readByte j =
      if j = 2 * a.toNat + 1 then lowByte v else if j = 2 * a.toNat then highByte v else m.readByte j := by
  simp only [Memory.writeWord, Memory.readByte_writeByte]

/-- A word write leaves every byte of the other words alone. -/
theorem Memory.readByte_writeWord_other (m : Memory) (a v : Word) (j : Nat) (h1 : j ≠ 2 * a.toNat)
    (h2 : j ≠ 2 * a.toNat + 1) : (m.writeWord a v).readByte j = m.readByte j := by
  rw [Memory.readByte_writeWord, if_neg h2, if_neg h1]

/-- A read after a write of the same word gives the value written. -/
@[simp] theorem Memory.readWord_writeWord_same (m : Memory) (a v : Word) :
    (m.writeWord a v).readWord a = v := by
  unfold Memory.readWord
  rw [Memory.readByte_writeWord, Memory.readByte_writeWord, if_neg (by omega), if_pos rfl, if_pos rfl,
    wordOfBytes_high_low]

/-- A write leaves every other word alone. -/
theorem Memory.readWord_writeWord_other (m : Memory) (a b v : Word) (h : b ≠ a) :
    (m.writeWord a v).readWord b = m.readWord b := by
  have hn : b.toNat ≠ a.toNat := fun e => h (BitVec.eq_of_toNat_eq e)
  unfold Memory.readWord
  rw [Memory.readByte_writeWord_other _ _ _ _ (by omega) (by omega),
    Memory.readByte_writeWord_other _ _ _ _ (by omega) (by omega)]

/-! ## The canonical form -/

theorem Memory.wf_filter {m : Memory} (h : m.wf) (k : Nat) :
    Memory.wf (m.filter (fun c => c.1 != k)) :=
  ⟨h.1.filter _, fun c hc => h.2 c (List.mem_filter.mp hc).1⟩

theorem Memory.mem_insertCell {c d : Host.Cell} {m : Memory} (h : d ∈ Memory.insertCell c m) :
    d = c ∨ d ∈ m := by
  induction m with
  | nil => simpa [Memory.insertCell] using h
  | cons e m ih =>
    simp only [Memory.insertCell] at h
    split_ifs at h with hlt
    · simpa using h
    · rcases List.mem_cons.mp h with h | h
      · exact .inr (by simp [h])
      · rcases ih h with h | h
        · exact .inl h
        · exact .inr (by simp [h])

theorem Memory.pairwise_insertCell {c : Host.Cell} {m : Memory}
    (hm : m.Pairwise (fun c d => c.1 < d.1)) (hc : ∀ d ∈ m, d.1 ≠ c.1) :
    List.Pairwise (fun c d => c.1 < d.1) (Memory.insertCell c m) := by
  induction m with
  | nil => simp [Memory.insertCell]
  | cons e m ih =>
    obtain ⟨he, hm'⟩ := List.pairwise_cons.mp hm
    simp only [Memory.insertCell]
    split_ifs with hlt
    · refine List.pairwise_cons.mpr ⟨fun d hd => ?_, hm⟩
      rcases List.mem_cons.mp hd with rfl | hd
      · exact hlt
      · exact hlt.trans (he d hd)
    · refine List.pairwise_cons.mpr
        ⟨fun d hd => ?_, ih hm' fun d hd => hc d (List.mem_cons_of_mem _ hd)⟩
      rcases Memory.mem_insertCell hd with rfl | hd
      · have := hc e List.mem_cons_self
        omega
      · exact he d hd

/-- A byte write inside the array keeps the canonical form. -/
theorem Memory.writeByte_wf {m : Memory} (h : m.wf) {k : Nat} (hk : k < 2 * memWords) (v : Byte) :
    (m.writeByte k v).wf := by
  have hf := Memory.wf_filter h k
  unfold Memory.writeByte
  split_ifs with hv
  · exact hf
  · refine ⟨Memory.pairwise_insertCell hf.1 (by simp), fun c hc => ?_⟩
    rcases Memory.mem_insertCell hc with rfl | hc
    · exact ⟨hv, hk⟩
    · exact hf.2 c hc

/-- A word write inside the array keeps the canonical form. -/
theorem Memory.writeWord_wf {m : Memory} (h : m.wf) {a : Word} (ha : a.toNat < memWords) (v : Word) :
    (m.writeWord a v).wf := by
  have : 2 * a.toNat + 1 < 2 * memWords := by omega
  exact Memory.writeByte_wf (Memory.writeByte_wf h (by omega) _) this _

theorem Memory.nil_wf : Memory.wf [] := by simp [Memory.wf]

/-- Two memories in canonical form that read the same everywhere are equal data. -/
theorem Memory.ext_of_wf {m n : Memory} (hm : m.wf) (hn : n.wf)
    (h : ∀ k, m.readByte k = n.readByte k) : m = n := by
  have read_none : ∀ (l : Memory) (k : Nat), (∀ d ∈ l, k < d.1) → l.readByte k = 0#8 := by
    intro l k
    induction l with
    | nil => intro _; rfl
    | cons d l ih =>
      intro hl
      rw [Memory.readByte_cons, if_neg (by have := hl d List.mem_cons_self; omega)]
      exact ih fun e he => hl e (List.mem_cons_of_mem _ he)
  induction m generalizing n with
  | nil =>
    cases n with
    | nil => rfl
    | cons d n =>
      have := h d.1
      rw [Memory.readByte_cons, if_pos rfl] at this
      exact absurd this.symm (hn.2 d List.mem_cons_self).1
  | cons c m ih =>
    obtain ⟨hc, hm'⟩ := List.pairwise_cons.mp hm.1
    have hcz := (hm.2 c List.mem_cons_self).1
    cases n with
    | nil =>
      have := h c.1
      rw [Memory.readByte_cons, if_pos rfl] at this
      exact absurd this hcz
    | cons d n =>
      obtain ⟨hd, hn'⟩ := List.pairwise_cons.mp hn.1
      have hdz := (hn.2 d List.mem_cons_self).1
      have key : c.1 = d.1 := by
        rcases Nat.lt_trichotomy c.1 d.1 with hlt | heq | hlt
        · have := h c.1
          rw [Memory.readByte_cons, if_pos rfl, read_none (d :: n) c.1 ?_] at this
          · exact absurd this hcz
          · intro e he
            rcases List.mem_cons.mp he with rfl | he
            · exact hlt
            · exact hlt.trans (hd e he)
        · exact heq
        · have := h d.1
          rw [Memory.readByte_cons d, if_pos rfl, read_none (c :: m) d.1 ?_] at this
          · exact absurd this.symm hdz
          · intro e he
            rcases List.mem_cons.mp he with rfl | he
            · exact hlt
            · exact hlt.trans (hc e he)
      have val : c.2 = d.2 := by
        have := h c.1
        rwa [Memory.readByte_cons, if_pos rfl, Memory.readByte_cons, if_pos key.symm] at this
      have hcd : c = d := Prod.ext key val
      subst hcd
      congr 1
      refine ih ⟨hm', fun e he => hm.2 e (List.mem_cons_of_mem _ he)⟩
        ⟨hn', fun e he => hn.2 e (List.mem_cons_of_mem _ he)⟩ fun k => ?_
      by_cases hk : c.1 = k
      · subst hk
        rw [read_none m c.1 hc, read_none n c.1 hd]
      · have := h k
        rwa [Memory.readByte_cons, if_neg hk, Memory.readByte_cons, if_neg hk] at this

/-! ## The memory of an image (20_memory.md R34) -/

theorem imageMemory_mem {k : Nat} {bytes : List Byte} {c : Host.Cell} (h : c ∈ imageMemory k bytes) :
    c.2 ≠ 0#8 ∧ k ≤ c.1 ∧ c.1 < k + bytes.length := by
  induction bytes generalizing k with
  | nil => simp [imageMemory] at h
  | cons b bs ih =>
    simp only [imageMemory] at h
    simp only [List.length_cons]
    split_ifs at h with hb
    · obtain ⟨h0, h1, h2⟩ := ih h
      exact ⟨h0, by omega, by omega⟩
    · rcases List.mem_cons.mp h with rfl | h
      · exact ⟨hb, by simp, by simp⟩
      · obtain ⟨h0, h1, h2⟩ := ih h
        exact ⟨h0, by omega, by omega⟩

theorem imageMemory_wf {k : Nat} {bytes : List Byte} (h : k + bytes.length ≤ 2 * memWords) :
    Memory.wf (imageMemory k bytes) := by
  refine ⟨?_, fun c hc => ?_⟩
  · induction bytes generalizing k with
    | nil => simp [imageMemory]
    | cons b bs ih =>
      simp only [List.length_cons] at h
      simp only [imageMemory]
      split_ifs with hb
      · exact ih (by omega)
      · exact List.pairwise_cons.mpr ⟨fun d hd => by have := imageMemory_mem hd; omega, ih (by omega)⟩
  · have := imageMemory_mem hc
    exact ⟨this.1, by omega⟩

/-- Byte `j` of the memory of an image is byte `j - k` of the image (20_memory.md R34). -/
theorem imageMemory_readByte (bytes : List Byte) (k j : Nat) :
    (imageMemory k bytes).readByte j = if k ≤ j then bytes.getD (j - k) 0#8 else 0#8 := by
  induction bytes generalizing k with
  | nil => simp [imageMemory]
  | cons b bs ih =>
    have tail : k < j → (b :: bs).getD (j - k) 0#8 = bs.getD (j - (k + 1)) 0#8 := fun h => by
      rw [show j - k = j - (k + 1) + 1 by omega]; simp
    simp only [imageMemory]
    rcases Nat.lt_trichotomy j k with h | h | h
    · split_ifs with hb <;> simp only [Memory.readByte_cons, ih] <;>
        rw [if_neg (by omega : ¬ k + 1 ≤ j)] <;> simp <;> omega
    · subst h
      by_cases hb : b = 0#8 <;> simp [Memory.readByte_cons, ih, hb]
    · rw [if_pos (by omega : k ≤ j), tail h]
      split_ifs with hb <;> simp only [Memory.readByte_cons, ih] <;>
        rw [if_pos (by omega : k + 1 ≤ j)]
      rw [if_neg (by omega : ¬ k = j)]

end Sys2Proof.Machine
end

