-- ==== Sys2Proof/Laws/State.lean ====
section
/-!
SUPPORT. One lemma per field per update of State, true by rfl, so that no later proof unfolds a record update;
then what a register, a word and a byte read after an update.
-/

namespace Sys2Proof.Machine

variable (s : State)

/-! ## setReg -/

@[simp] theorem State.setReg_regs (i : RegIdx) (v : Word) : (s.setReg i v).regs = s.regs.set i.toNat v i.isLt := rfl
@[simp] theorem State.setReg_sp (i : RegIdx) (v : Word) : (s.setReg i v).sp = s.sp := rfl
@[simp] theorem State.setReg_pc (i : RegIdx) (v : Word) : (s.setReg i v).pc = s.pc := rfl
@[simp] theorem State.setReg_flags (i : RegIdx) (v : Word) : (s.setReg i v).flags = s.flags := rfl
@[simp] theorem State.setReg_live (i : RegIdx) (v : Word) : (s.setReg i v).live = s.live := rfl
@[simp] theorem State.setReg_baseline (i : RegIdx) (v : Word) : (s.setReg i v).baseline = s.baseline := rfl
@[simp] theorem State.setReg_instructionCount (i : RegIdx) (v : Word) : (s.setReg i v).instructionCount = s.instructionCount := rfl
@[simp] theorem State.setReg_running (i : RegIdx) (v : Word) : (s.setReg i v).running = s.running := rfl
@[simp] theorem State.setReg_status (i : RegIdx) (v : Word) : (s.setReg i v).status = s.status := rfl
@[simp] theorem State.setReg_outcome (i : RegIdx) (v : Word) : (s.setReg i v).outcome = s.outcome := rfl
@[simp] theorem State.setReg_hooks (i : RegIdx) (v : Word) : (s.setReg i v).hooks = s.hooks := rfl
@[simp] theorem State.setReg_params (i : RegIdx) (v : Word) : (s.setReg i v).params = s.params := rfl

/-! ## setSp -/

@[simp] theorem State.setSp_regs (v : Word) : (s.setSp v).regs = s.regs := rfl
@[simp] theorem State.setSp_sp (v : Word) : (s.setSp v).sp = v := rfl
@[simp] theorem State.setSp_pc (v : Word) : (s.setSp v).pc = s.pc := rfl
@[simp] theorem State.setSp_flags (v : Word) : (s.setSp v).flags = s.flags := rfl
@[simp] theorem State.setSp_live (v : Word) : (s.setSp v).live = s.live := rfl
@[simp] theorem State.setSp_baseline (v : Word) : (s.setSp v).baseline = s.baseline := rfl
@[simp] theorem State.setSp_instructionCount (v : Word) : (s.setSp v).instructionCount = s.instructionCount := rfl
@[simp] theorem State.setSp_running (v : Word) : (s.setSp v).running = s.running := rfl
@[simp] theorem State.setSp_status (v : Word) : (s.setSp v).status = s.status := rfl
@[simp] theorem State.setSp_outcome (v : Word) : (s.setSp v).outcome = s.outcome := rfl
@[simp] theorem State.setSp_hooks (v : Word) : (s.setSp v).hooks = s.hooks := rfl
@[simp] theorem State.setSp_params (v : Word) : (s.setSp v).params = s.params := rfl

/-! ## setPc -/

@[simp] theorem State.setPc_regs (v : Word) : (s.setPc v).regs = s.regs := rfl
@[simp] theorem State.setPc_sp (v : Word) : (s.setPc v).sp = s.sp := rfl
@[simp] theorem State.setPc_pc (v : Word) : (s.setPc v).pc = v := rfl
@[simp] theorem State.setPc_flags (v : Word) : (s.setPc v).flags = s.flags := rfl
@[simp] theorem State.setPc_live (v : Word) : (s.setPc v).live = s.live := rfl
@[simp] theorem State.setPc_baseline (v : Word) : (s.setPc v).baseline = s.baseline := rfl
@[simp] theorem State.setPc_instructionCount (v : Word) : (s.setPc v).instructionCount = s.instructionCount := rfl
@[simp] theorem State.setPc_running (v : Word) : (s.setPc v).running = s.running := rfl
@[simp] theorem State.setPc_status (v : Word) : (s.setPc v).status = s.status := rfl
@[simp] theorem State.setPc_outcome (v : Word) : (s.setPc v).outcome = s.outcome := rfl
@[simp] theorem State.setPc_hooks (v : Word) : (s.setPc v).hooks = s.hooks := rfl
@[simp] theorem State.setPc_params (v : Word) : (s.setPc v).params = s.params := rfl

/-! ## setFlags -/

@[simp] theorem State.setFlags_regs (f : Flags) : (s.setFlags f).regs = s.regs := rfl
@[simp] theorem State.setFlags_sp (f : Flags) : (s.setFlags f).sp = s.sp := rfl
@[simp] theorem State.setFlags_pc (f : Flags) : (s.setFlags f).pc = s.pc := rfl
@[simp] theorem State.setFlags_flags (f : Flags) : (s.setFlags f).flags = f := rfl
@[simp] theorem State.setFlags_live (f : Flags) : (s.setFlags f).live = s.live := rfl
@[simp] theorem State.setFlags_baseline (f : Flags) : (s.setFlags f).baseline = s.baseline := rfl
@[simp] theorem State.setFlags_instructionCount (f : Flags) : (s.setFlags f).instructionCount = s.instructionCount := rfl
@[simp] theorem State.setFlags_running (f : Flags) : (s.setFlags f).running = s.running := rfl
@[simp] theorem State.setFlags_status (f : Flags) : (s.setFlags f).status = s.status := rfl
@[simp] theorem State.setFlags_outcome (f : Flags) : (s.setFlags f).outcome = s.outcome := rfl
@[simp] theorem State.setFlags_hooks (f : Flags) : (s.setFlags f).hooks = s.hooks := rfl
@[simp] theorem State.setFlags_params (f : Flags) : (s.setFlags f).params = s.params := rfl

/-! ## writeWord -/

@[simp] theorem State.writeWord_regs (a v : Word) : (s.writeWord a v).regs = s.regs := rfl
@[simp] theorem State.writeWord_sp (a v : Word) : (s.writeWord a v).sp = s.sp := rfl
@[simp] theorem State.writeWord_pc (a v : Word) : (s.writeWord a v).pc = s.pc := rfl
@[simp] theorem State.writeWord_flags (a v : Word) : (s.writeWord a v).flags = s.flags := rfl
@[simp] theorem State.writeWord_live (a v : Word) : (s.writeWord a v).live = s.live.writeWord a v := rfl
@[simp] theorem State.writeWord_baseline (a v : Word) : (s.writeWord a v).baseline = s.baseline := rfl
@[simp] theorem State.writeWord_instructionCount (a v : Word) : (s.writeWord a v).instructionCount = s.instructionCount := rfl
@[simp] theorem State.writeWord_running (a v : Word) : (s.writeWord a v).running = s.running := rfl
@[simp] theorem State.writeWord_status (a v : Word) : (s.writeWord a v).status = s.status := rfl
@[simp] theorem State.writeWord_outcome (a v : Word) : (s.writeWord a v).outcome = s.outcome := rfl
@[simp] theorem State.writeWord_hooks (a v : Word) : (s.writeWord a v).hooks = s.hooks := rfl
@[simp] theorem State.writeWord_params (a v : Word) : (s.writeWord a v).params = s.params := rfl

/-! ## answer -/

@[simp] theorem State.answer_regs (o : StepOutcome) : (s.answer o).regs = s.regs := rfl
@[simp] theorem State.answer_sp (o : StepOutcome) : (s.answer o).sp = s.sp := rfl
@[simp] theorem State.answer_pc (o : StepOutcome) : (s.answer o).pc = s.pc := rfl
@[simp] theorem State.answer_flags (o : StepOutcome) : (s.answer o).flags = s.flags := rfl
@[simp] theorem State.answer_live (o : StepOutcome) : (s.answer o).live = s.live := rfl
@[simp] theorem State.answer_baseline (o : StepOutcome) : (s.answer o).baseline = s.baseline := rfl
@[simp] theorem State.answer_instructionCount (o : StepOutcome) : (s.answer o).instructionCount = s.instructionCount := rfl
@[simp] theorem State.answer_running (o : StepOutcome) : (s.answer o).running = s.running := rfl
@[simp] theorem State.answer_status (o : StepOutcome) : (s.answer o).status = s.status := rfl
@[simp] theorem State.answer_outcome (o : StepOutcome) : (s.answer o).outcome = o := rfl
@[simp] theorem State.answer_hooks (o : StepOutcome) : (s.answer o).hooks = s.hooks := rfl
@[simp] theorem State.answer_params (o : StepOutcome) : (s.answer o).params = s.params := rfl

/-! ## complete -/

@[simp] theorem State.complete_regs : s.complete.regs = s.regs := rfl
@[simp] theorem State.complete_sp : s.complete.sp = s.sp := rfl
@[simp] theorem State.complete_pc : s.complete.pc = s.pc := rfl
@[simp] theorem State.complete_flags : s.complete.flags = s.flags := rfl
@[simp] theorem State.complete_live : s.complete.live = s.live := rfl
@[simp] theorem State.complete_baseline : s.complete.baseline = s.baseline := rfl
@[simp] theorem State.complete_instructionCount : s.complete.instructionCount = s.instructionCount := rfl
@[simp] theorem State.complete_running : s.complete.running = s.running := rfl
@[simp] theorem State.complete_status : s.complete.status = s.status := rfl
@[simp] theorem State.complete_outcome : s.complete.outcome = .cont := rfl
@[simp] theorem State.complete_hooks : s.complete.hooks = s.hooks := rfl
@[simp] theorem State.complete_params : s.complete.params = s.params := rfl

/-! ## stop -/

@[simp] theorem State.stop_regs (r : StopReason) : (s.stop r).regs = s.regs := rfl
@[simp] theorem State.stop_sp (r : StopReason) : (s.stop r).sp = s.sp := rfl
@[simp] theorem State.stop_pc (r : StopReason) : (s.stop r).pc = s.pc := rfl
@[simp] theorem State.stop_flags (r : StopReason) : (s.stop r).flags = s.flags := rfl
@[simp] theorem State.stop_live (r : StopReason) : (s.stop r).live = s.live := rfl
@[simp] theorem State.stop_baseline (r : StopReason) : (s.stop r).baseline = s.baseline := rfl
@[simp] theorem State.stop_instructionCount (r : StopReason) : (s.stop r).instructionCount = s.instructionCount := rfl
@[simp] theorem State.stop_running (r : StopReason) : (s.stop r).running = s.running := rfl
@[simp] theorem State.stop_status (r : StopReason) : (s.stop r).status = s.status := rfl
@[simp] theorem State.stop_outcome (r : StopReason) : (s.stop r).outcome = .stop r := rfl
@[simp] theorem State.stop_hooks (r : StopReason) : (s.stop r).hooks = s.hooks := rfl
@[simp] theorem State.stop_params (r : StopReason) : (s.stop r).params = s.params := rfl

/-! ## raise -/

@[simp] theorem State.raise_regs (k : Fault) : (s.raise k).regs = s.regs := rfl
@[simp] theorem State.raise_sp (k : Fault) : (s.raise k).sp = s.sp := rfl
@[simp] theorem State.raise_pc (k : Fault) : (s.raise k).pc = s.pc := rfl
@[simp] theorem State.raise_flags (k : Fault) : (s.raise k).flags = s.flags := rfl
@[simp] theorem State.raise_live (k : Fault) : (s.raise k).live = s.live := rfl
@[simp] theorem State.raise_baseline (k : Fault) : (s.raise k).baseline = s.baseline := rfl
@[simp] theorem State.raise_instructionCount (k : Fault) : (s.raise k).instructionCount = s.instructionCount := rfl
@[simp] theorem State.raise_running (k : Fault) : (s.raise k).running = s.running := rfl
@[simp] theorem State.raise_status (k : Fault) : (s.raise k).status = s.status := rfl
@[simp] theorem State.raise_outcome (k : Fault) : (s.raise k).outcome = .fault { kind := k, addr := s.pc, word := some (s.readWord s.pc) } := rfl
@[simp] theorem State.raise_hooks (k : Fault) : (s.raise k).hooks = s.hooks := rfl
@[simp] theorem State.raise_params (k : Fault) : (s.raise k).params = s.params := rfl

/-! ## raiseUndecoded -/

@[simp] theorem State.raiseUndecoded_regs (k : Fault) : (s.raiseUndecoded k).regs = s.regs := rfl
@[simp] theorem State.raiseUndecoded_sp (k : Fault) : (s.raiseUndecoded k).sp = s.sp := rfl
@[simp] theorem State.raiseUndecoded_pc (k : Fault) : (s.raiseUndecoded k).pc = s.pc := rfl
@[simp] theorem State.raiseUndecoded_flags (k : Fault) : (s.raiseUndecoded k).flags = s.flags := rfl
@[simp] theorem State.raiseUndecoded_live (k : Fault) : (s.raiseUndecoded k).live = s.live := rfl
@[simp] theorem State.raiseUndecoded_baseline (k : Fault) : (s.raiseUndecoded k).baseline = s.baseline := rfl
@[simp] theorem State.raiseUndecoded_instructionCount (k : Fault) : (s.raiseUndecoded k).instructionCount = s.instructionCount := rfl
@[simp] theorem State.raiseUndecoded_running (k : Fault) : (s.raiseUndecoded k).running = s.running := rfl
@[simp] theorem State.raiseUndecoded_status (k : Fault) : (s.raiseUndecoded k).status = s.status := rfl
@[simp] theorem State.raiseUndecoded_outcome (k : Fault) : (s.raiseUndecoded k).outcome = .fault { kind := k, addr := s.pc, word := none } := rfl
@[simp] theorem State.raiseUndecoded_hooks (k : Fault) : (s.raiseUndecoded k).hooks = s.hooks := rfl
@[simp] theorem State.raiseUndecoded_params (k : Fault) : (s.raiseUndecoded k).params = s.params := rfl

/-! ## callInput -/

@[simp] theorem State.callInput_regs : s.callInput.regs = s.regs := rfl
@[simp] theorem State.callInput_sp : s.callInput.sp = s.sp := rfl
@[simp] theorem State.callInput_pc : s.callInput.pc = s.pc := rfl
@[simp] theorem State.callInput_flags : s.callInput.flags = s.flags := rfl
@[simp] theorem State.callInput_live : s.callInput.live = s.live := rfl
@[simp] theorem State.callInput_baseline : s.callInput.baseline = s.baseline := rfl
@[simp] theorem State.callInput_instructionCount : s.callInput.instructionCount = s.instructionCount := rfl
@[simp] theorem State.callInput_running : s.callInput.running = s.running := rfl
@[simp] theorem State.callInput_status : s.callInput.status = s.status := rfl
@[simp] theorem State.callInput_outcome : s.callInput.outcome = s.outcome := rfl
@[simp] theorem State.callInput_hooks : s.callInput.hooks = s.hooks.afterInput := rfl
@[simp] theorem State.callInput_params : s.callInput.params = s.params := rfl

/-! ## callOutput -/

@[simp] theorem State.callOutput_regs (c p : Word) : (s.callOutput c p).regs = s.regs := rfl
@[simp] theorem State.callOutput_sp (c p : Word) : (s.callOutput c p).sp = s.sp := rfl
@[simp] theorem State.callOutput_pc (c p : Word) : (s.callOutput c p).pc = s.pc := rfl
@[simp] theorem State.callOutput_flags (c p : Word) : (s.callOutput c p).flags = s.flags := rfl
@[simp] theorem State.callOutput_live (c p : Word) : (s.callOutput c p).live = s.live := rfl
@[simp] theorem State.callOutput_baseline (c p : Word) : (s.callOutput c p).baseline = s.baseline := rfl
@[simp] theorem State.callOutput_instructionCount (c p : Word) : (s.callOutput c p).instructionCount = s.instructionCount := rfl
@[simp] theorem State.callOutput_running (c p : Word) : (s.callOutput c p).running = s.running := rfl
@[simp] theorem State.callOutput_status (c p : Word) : (s.callOutput c p).status = s.status := rfl
@[simp] theorem State.callOutput_outcome (c p : Word) : (s.callOutput c p).outcome = s.outcome := rfl
@[simp] theorem State.callOutput_hooks (c p : Word) : (s.callOutput c p).hooks = s.hooks.afterOutput { char := c, pos := p } := rfl
@[simp] theorem State.callOutput_params (c p : Word) : (s.callOutput c p).params = s.params := rfl

/-! ## noteStatus -/

@[simp] theorem State.noteStatus_regs : s.noteStatus.regs = s.regs := rfl
@[simp] theorem State.noteStatus_sp : s.noteStatus.sp = s.sp := rfl
@[simp] theorem State.noteStatus_pc : s.noteStatus.pc = s.pc := rfl
@[simp] theorem State.noteStatus_flags : s.noteStatus.flags = s.flags := rfl
@[simp] theorem State.noteStatus_live : s.noteStatus.live = s.live := rfl
@[simp] theorem State.noteStatus_baseline : s.noteStatus.baseline = s.baseline := rfl
@[simp] theorem State.noteStatus_instructionCount : s.noteStatus.instructionCount = s.instructionCount := rfl
@[simp] theorem State.noteStatus_running : s.noteStatus.running = s.running := rfl
@[simp] theorem State.noteStatus_status : s.noteStatus.status = s.status.after s.outcome := rfl
@[simp] theorem State.noteStatus_outcome : s.noteStatus.outcome = s.outcome := rfl
@[simp] theorem State.noteStatus_hooks : s.noteStatus.hooks = s.hooks := rfl
@[simp] theorem State.noteStatus_params : s.noteStatus.params = s.params := rfl

/-! ## retire -/

@[simp] theorem State.retire_regs (n : Nat) : (s.retire n).regs = s.regs := rfl
@[simp] theorem State.retire_sp (n : Nat) : (s.retire n).sp = s.sp := rfl
@[simp] theorem State.retire_pc (n : Nat) : (s.retire n).pc = s.pc + BitVec.ofNat 16 n := rfl
@[simp] theorem State.retire_flags (n : Nat) : (s.retire n).flags = s.flags := rfl
@[simp] theorem State.retire_live (n : Nat) : (s.retire n).live = s.live := rfl
@[simp] theorem State.retire_baseline (n : Nat) : (s.retire n).baseline = s.baseline := rfl
@[simp] theorem State.retire_instructionCount (n : Nat) : (s.retire n).instructionCount = s.instructionCount + 1 := rfl
@[simp] theorem State.retire_running (n : Nat) : (s.retire n).running = s.running := rfl
@[simp] theorem State.retire_status (n : Nat) : (s.retire n).status = s.status.after s.outcome := rfl
@[simp] theorem State.retire_outcome (n : Nat) : (s.retire n).outcome = s.outcome := rfl
@[simp] theorem State.retire_hooks (n : Nat) : (s.retire n).hooks = s.hooks := rfl
@[simp] theorem State.retire_params (n : Nat) : (s.retire n).params = s.params := rfl

/-! ## faultPcOutOfRange -/

@[simp] theorem State.faultPcOutOfRange_regs : s.faultPcOutOfRange.regs = s.regs := rfl
@[simp] theorem State.faultPcOutOfRange_sp : s.faultPcOutOfRange.sp = s.sp := rfl
@[simp] theorem State.faultPcOutOfRange_pc : s.faultPcOutOfRange.pc = s.pc := rfl
@[simp] theorem State.faultPcOutOfRange_flags : s.faultPcOutOfRange.flags = s.flags := rfl
@[simp] theorem State.faultPcOutOfRange_live : s.faultPcOutOfRange.live = s.live := rfl
@[simp] theorem State.faultPcOutOfRange_baseline : s.faultPcOutOfRange.baseline = s.baseline := rfl
@[simp] theorem State.faultPcOutOfRange_instructionCount : s.faultPcOutOfRange.instructionCount = s.instructionCount := rfl
@[simp] theorem State.faultPcOutOfRange_running : s.faultPcOutOfRange.running = s.running := rfl
@[simp] theorem State.faultPcOutOfRange_status : s.faultPcOutOfRange.status = .faulted := rfl
@[simp] theorem State.faultPcOutOfRange_outcome : s.faultPcOutOfRange.outcome = .fault { kind := .pcOutOfRange, addr := s.pc, word := none } := rfl
@[simp] theorem State.faultPcOutOfRange_hooks : s.faultPcOutOfRange.hooks = s.hooks := rfl
@[simp] theorem State.faultPcOutOfRange_params : s.faultPcOutOfRange.params = s.params := rfl

/-! ## faultUnknown -/

@[simp] theorem State.faultUnknown_regs : s.faultUnknown.regs = s.regs := rfl
@[simp] theorem State.faultUnknown_sp : s.faultUnknown.sp = s.sp := rfl
@[simp] theorem State.faultUnknown_pc : s.faultUnknown.pc = s.pc + 1#16 := rfl
@[simp] theorem State.faultUnknown_flags : s.faultUnknown.flags = s.flags := rfl
@[simp] theorem State.faultUnknown_live : s.faultUnknown.live = s.live := rfl
@[simp] theorem State.faultUnknown_baseline : s.faultUnknown.baseline = s.baseline := rfl
@[simp] theorem State.faultUnknown_instructionCount : s.faultUnknown.instructionCount = s.instructionCount := rfl
@[simp] theorem State.faultUnknown_running : s.faultUnknown.running = s.running := rfl
@[simp] theorem State.faultUnknown_status : s.faultUnknown.status = .faulted := rfl
@[simp] theorem State.faultUnknown_outcome : s.faultUnknown.outcome = .fault { kind := .unknownInstruction, addr := s.pc, word := none } := rfl
@[simp] theorem State.faultUnknown_hooks : s.faultUnknown.hooks = s.hooks := rfl
@[simp] theorem State.faultUnknown_params : s.faultUnknown.params = s.params := rfl

/-! ## redirect -/

@[simp] theorem State.redirect_regs (t : Word) : (s.redirect t).regs = s.regs := rfl
@[simp] theorem State.redirect_sp (t : Word) : (s.redirect t).sp = s.sp := rfl
@[simp] theorem State.redirect_pc (t : Word) : (s.redirect t).pc = t - 2#16 := rfl
@[simp] theorem State.redirect_flags (t : Word) : (s.redirect t).flags = s.flags := rfl
@[simp] theorem State.redirect_live (t : Word) : (s.redirect t).live = s.live := rfl
@[simp] theorem State.redirect_baseline (t : Word) : (s.redirect t).baseline = s.baseline := rfl
@[simp] theorem State.redirect_instructionCount (t : Word) : (s.redirect t).instructionCount = s.instructionCount := rfl
@[simp] theorem State.redirect_running (t : Word) : (s.redirect t).running = s.running := rfl
@[simp] theorem State.redirect_status (t : Word) : (s.redirect t).status = s.status := rfl
@[simp] theorem State.redirect_outcome (t : Word) : (s.redirect t).outcome = s.outcome := rfl
@[simp] theorem State.redirect_hooks (t : Word) : (s.redirect t).hooks = s.hooks := rfl
@[simp] theorem State.redirect_params (t : Word) : (s.redirect t).params = s.params := rfl

/-! ## stayOnWord -/

@[simp] theorem State.stayOnWord_regs : s.stayOnWord.regs = s.regs := rfl
@[simp] theorem State.stayOnWord_sp : s.stayOnWord.sp = s.sp := rfl
@[simp] theorem State.stayOnWord_pc : s.stayOnWord.pc = s.pc - 1#16 := rfl
@[simp] theorem State.stayOnWord_flags : s.stayOnWord.flags = s.flags := rfl
@[simp] theorem State.stayOnWord_live : s.stayOnWord.live = s.live := rfl
@[simp] theorem State.stayOnWord_baseline : s.stayOnWord.baseline = s.baseline := rfl
@[simp] theorem State.stayOnWord_instructionCount : s.stayOnWord.instructionCount = s.instructionCount := rfl
@[simp] theorem State.stayOnWord_running : s.stayOnWord.running = s.running := rfl
@[simp] theorem State.stayOnWord_status : s.stayOnWord.status = s.status := rfl
@[simp] theorem State.stayOnWord_outcome : s.stayOnWord.outcome = s.outcome := rfl
@[simp] theorem State.stayOnWord_hooks : s.stayOnWord.hooks = s.hooks := rfl
@[simp] theorem State.stayOnWord_params : s.stayOnWord.params = s.params := rfl

/-! ## endRun -/

@[simp] theorem State.endRun_regs (st : EngineStatus) : (s.endRun st).regs = s.regs := rfl
@[simp] theorem State.endRun_sp (st : EngineStatus) : (s.endRun st).sp = s.sp := rfl
@[simp] theorem State.endRun_pc (st : EngineStatus) : (s.endRun st).pc = s.pc := rfl
@[simp] theorem State.endRun_flags (st : EngineStatus) : (s.endRun st).flags = s.flags := rfl
@[simp] theorem State.endRun_live (st : EngineStatus) : (s.endRun st).live = s.live := rfl
@[simp] theorem State.endRun_baseline (st : EngineStatus) : (s.endRun st).baseline = s.baseline := rfl
@[simp] theorem State.endRun_instructionCount (st : EngineStatus) : (s.endRun st).instructionCount = s.instructionCount := rfl
@[simp] theorem State.endRun_running (st : EngineStatus) : (s.endRun st).running = false := rfl
@[simp] theorem State.endRun_status (st : EngineStatus) : (s.endRun st).status = st := rfl
@[simp] theorem State.endRun_outcome (st : EngineStatus) : (s.endRun st).outcome = s.outcome := rfl
@[simp] theorem State.endRun_hooks (st : EngineStatus) : (s.endRun st).hooks = s.hooks := rfl
@[simp] theorem State.endRun_params (st : EngineStatus) : (s.endRun st).params = s.params := rfl

/-! ## hostReset -/

@[simp] theorem State.hostReset_regs : s.hostReset.regs = Vector.replicate 8 0#16 := rfl
@[simp] theorem State.hostReset_sp : s.hostReset.sp = Config.spInit := rfl
@[simp] theorem State.hostReset_pc : s.hostReset.pc = Config.pcInit := rfl
@[simp] theorem State.hostReset_flags : s.hostReset.flags = Flags.clear := rfl
@[simp] theorem State.hostReset_live : s.hostReset.live = s.baseline := rfl
@[simp] theorem State.hostReset_baseline : s.hostReset.baseline = s.baseline := rfl
@[simp] theorem State.hostReset_instructionCount : s.hostReset.instructionCount = 0 := rfl
@[simp] theorem State.hostReset_running : s.hostReset.running = s.running := rfl
@[simp] theorem State.hostReset_status : s.hostReset.status = .idle := rfl
@[simp] theorem State.hostReset_outcome : s.hostReset.outcome = s.outcome := rfl
@[simp] theorem State.hostReset_hooks : s.hostReset.hooks = s.hooks := rfl
@[simp] theorem State.hostReset_params : s.hostReset.params = s.params := rfl

/-! ## Registers -/

theorem State.reg_setReg (i j : RegIdx) (v : Word) :
    (s.setReg i v).reg j = if j = i then v else s.reg j := by
  show (s.regs.set i.toNat v i.isLt)[j.toNat] = if j = i then v else s.regs[j.toNat]
  rw [Vector.getElem_set]
  by_cases h : j = i
  · simp [h]
  · have : i.toNat ≠ j.toNat := fun e => h (BitVec.eq_of_toNat_eq e.symm)
    simp [h, this]

@[simp] theorem State.reg_setReg_same (i : RegIdx) (v : Word) : (s.setReg i v).reg i = v := by
  rw [State.reg_setReg, if_pos rfl]

theorem State.reg_setReg_other {i j : RegIdx} (v : Word) (h : j ≠ i) : (s.setReg i v).reg j = s.reg j := by
  rw [State.reg_setReg, if_neg h]

/-- A register reads the same in states with the same register file. -/
theorem State.reg_congr {s t : State} (h : t.regs = s.regs) (i : RegIdx) : t.reg i = s.reg i := by
  unfold State.reg; rw [h]

/-- A byte reads the same in states with the same live memory. -/
theorem State.readByte_congr {s t : State} (h : t.live = s.live) (k : Nat) : t.readByte k = s.readByte k := by
  unfold State.readByte; rw [h]

/-- A word reads the same in states with the same live memory. -/
theorem State.readWord_congr {s t : State} (h : t.live = s.live) (a : Word) : t.readWord a = s.readWord a := by
  unfold State.readWord; rw [h]

@[simp] theorem State.setReg_readByte (i : RegIdx) (v : Word) (m : Nat) : (s.setReg i v).readByte m = s.readByte m := rfl
@[simp] theorem State.setReg_readWord (i : RegIdx) (v : Word) (w : Word) : (s.setReg i v).readWord w = s.readWord w := rfl
@[simp] theorem State.setSp_reg (v : Word) (j : RegIdx) : (s.setSp v).reg j = s.reg j := rfl
@[simp] theorem State.setSp_readByte (v : Word) (m : Nat) : (s.setSp v).readByte m = s.readByte m := rfl
@[simp] theorem State.setSp_readWord (v : Word) (w : Word) : (s.setSp v).readWord w = s.readWord w := rfl
@[simp] theorem State.setPc_reg (v : Word) (j : RegIdx) : (s.setPc v).reg j = s.reg j := rfl
@[simp] theorem State.setPc_readByte (v : Word) (m : Nat) : (s.setPc v).readByte m = s.readByte m := rfl
@[simp] theorem State.setPc_readWord (v : Word) (w : Word) : (s.setPc v).readWord w = s.readWord w := rfl
@[simp] theorem State.setFlags_reg (f : Flags) (j : RegIdx) : (s.setFlags f).reg j = s.reg j := rfl
@[simp] theorem State.setFlags_readByte (f : Flags) (m : Nat) : (s.setFlags f).readByte m = s.readByte m := rfl
@[simp] theorem State.setFlags_readWord (f : Flags) (w : Word) : (s.setFlags f).readWord w = s.readWord w := rfl
@[simp] theorem State.writeWord_reg (a v : Word) (j : RegIdx) : (s.writeWord a v).reg j = s.reg j := rfl
@[simp] theorem State.answer_reg (o : StepOutcome) (j : RegIdx) : (s.answer o).reg j = s.reg j := rfl
@[simp] theorem State.answer_readByte (o : StepOutcome) (m : Nat) : (s.answer o).readByte m = s.readByte m := rfl
@[simp] theorem State.answer_readWord (o : StepOutcome) (w : Word) : (s.answer o).readWord w = s.readWord w := rfl
@[simp] theorem State.complete_reg (j : RegIdx) : s.complete.reg j = s.reg j := rfl
@[simp] theorem State.complete_readByte (m : Nat) : s.complete.readByte m = s.readByte m := rfl
@[simp] theorem State.complete_readWord (w : Word) : s.complete.readWord w = s.readWord w := rfl
@[simp] theorem State.stop_reg (r : StopReason) (j : RegIdx) : (s.stop r).reg j = s.reg j := rfl
@[simp] theorem State.stop_readByte (r : StopReason) (m : Nat) : (s.stop r).readByte m = s.readByte m := rfl
@[simp] theorem State.stop_readWord (r : StopReason) (w : Word) : (s.stop r).readWord w = s.readWord w := rfl
@[simp] theorem State.raise_reg (k : Fault) (j : RegIdx) : (s.raise k).reg j = s.reg j := rfl
@[simp] theorem State.raise_readByte (k : Fault) (m : Nat) : (s.raise k).readByte m = s.readByte m := rfl
@[simp] theorem State.raise_readWord (k : Fault) (w : Word) : (s.raise k).readWord w = s.readWord w := rfl
@[simp] theorem State.raiseUndecoded_reg (k : Fault) (j : RegIdx) : (s.raiseUndecoded k).reg j = s.reg j := rfl
@[simp] theorem State.raiseUndecoded_readByte (k : Fault) (m : Nat) : (s.raiseUndecoded k).readByte m = s.readByte m := rfl
@[simp] theorem State.raiseUndecoded_readWord (k : Fault) (w : Word) : (s.raiseUndecoded k).readWord w = s.readWord w := rfl
@[simp] theorem State.callInput_reg (j : RegIdx) : s.callInput.reg j = s.reg j := rfl
@[simp] theorem State.callInput_readByte (m : Nat) : s.callInput.readByte m = s.readByte m := rfl
@[simp] theorem State.callInput_readWord (w : Word) : s.callInput.readWord w = s.readWord w := rfl
@[simp] theorem State.callOutput_reg (c p : Word) (j : RegIdx) : (s.callOutput c p).reg j = s.reg j := rfl
@[simp] theorem State.callOutput_readByte (c p : Word) (m : Nat) : (s.callOutput c p).readByte m = s.readByte m := rfl
@[simp] theorem State.callOutput_readWord (c p : Word) (w : Word) : (s.callOutput c p).readWord w = s.readWord w := rfl
@[simp] theorem State.noteStatus_reg (j : RegIdx) : s.noteStatus.reg j = s.reg j := rfl
@[simp] theorem State.noteStatus_readByte (m : Nat) : s.noteStatus.readByte m = s.readByte m := rfl
@[simp] theorem State.noteStatus_readWord (w : Word) : s.noteStatus.readWord w = s.readWord w := rfl
@[simp] theorem State.retire_reg (n : Nat) (j : RegIdx) : (s.retire n).reg j = s.reg j := rfl
@[simp] theorem State.retire_readByte (n : Nat) (m : Nat) : (s.retire n).readByte m = s.readByte m := rfl
@[simp] theorem State.retire_readWord (n : Nat) (w : Word) : (s.retire n).readWord w = s.readWord w := rfl
@[simp] theorem State.faultPcOutOfRange_reg (j : RegIdx) : s.faultPcOutOfRange.reg j = s.reg j := rfl
@[simp] theorem State.faultPcOutOfRange_readByte (m : Nat) : s.faultPcOutOfRange.readByte m = s.readByte m := rfl
@[simp] theorem State.faultPcOutOfRange_readWord (w : Word) : s.faultPcOutOfRange.readWord w = s.readWord w := rfl
@[simp] theorem State.faultUnknown_reg (j : RegIdx) : s.faultUnknown.reg j = s.reg j := rfl
@[simp] theorem State.faultUnknown_readByte (m : Nat) : s.faultUnknown.readByte m = s.readByte m := rfl
@[simp] theorem State.faultUnknown_readWord (w : Word) : s.faultUnknown.readWord w = s.readWord w := rfl
@[simp] theorem State.redirect_reg (t : Word) (j : RegIdx) : (s.redirect t).reg j = s.reg j := rfl
@[simp] theorem State.redirect_readByte (t : Word) (m : Nat) : (s.redirect t).readByte m = s.readByte m := rfl
@[simp] theorem State.redirect_readWord (t : Word) (w : Word) : (s.redirect t).readWord w = s.readWord w := rfl
@[simp] theorem State.stayOnWord_reg (j : RegIdx) : s.stayOnWord.reg j = s.reg j := rfl
@[simp] theorem State.stayOnWord_readByte (m : Nat) : s.stayOnWord.readByte m = s.readByte m := rfl
@[simp] theorem State.stayOnWord_readWord (w : Word) : s.stayOnWord.readWord w = s.readWord w := rfl
@[simp] theorem State.endRun_reg (st : EngineStatus) (j : RegIdx) : (s.endRun st).reg j = s.reg j := rfl
@[simp] theorem State.endRun_readByte (st : EngineStatus) (m : Nat) : (s.endRun st).readByte m = s.readByte m := rfl
@[simp] theorem State.endRun_readWord (st : EngineStatus) (w : Word) : (s.endRun st).readWord w = s.readWord w := rfl

end Sys2Proof.Machine
end

