-- ==== Sys2Proof/Laws/Ops.lean ====
section
/-!
SUPPORT. One lemma per shared operation that says once everything it can do; proofs cite these instead of
unfolding the operation.
-/

namespace Sys2Proof.Machine

variable (s : State)

/-! ## Checks -/

@[simp] theorem fetchOk_iff (pc : Word) : fetchOk pc = true ↔ pc.toNat < 0x7FFF := by simp [fetchOk]

@[simp] theorem operandOk_iff (pc : Word) : operandOk pc = true ↔ pc.toNat + 1 < 0x7FFF := by
  simp [operandOk]

@[simp] theorem dataOk_iff (a : Word) : dataOk a = true ↔ a.toNat < 0x7FFF := by simp [dataOk]

@[simp] theorem targetOk_iff (t : Word) : targetOk t = true ↔ t.toNat ≤ 0x7FFF := by simp [targetOk]

@[simp] theorem pushOk_iff (sp : Word) : pushOk sp = true ↔ 0 < sp.toNat ∧ sp.toNat < 0x8000 := by
  simp [pushOk]

@[simp] theorem popOk_iff (sp : Word) : popOk sp = true ↔ sp.toNat < 0x7FFF := by simp [popOk]

@[simp] theorem rtsOk_iff (sp : Word) : rtsOk sp = true ↔ sp.toNat < 0x7FFE := by simp [rtsOk]

@[simp] theorem spValueOk_iff (v : Word) : spValueOk v = true ↔ v.toNat ≤ 0x7FFF := by simp [spValueOk]

/-! ## ALU routines -/

@[simp] theorem State.writeAlu_regs (rx : RegIdx) (r : Wide) :
    (s.writeAlu rx r).regs = s.regs.set rx.toNat (truncate r) rx.isLt := rfl
@[simp] theorem State.writeAlu_sp (rx : RegIdx) (r : Wide) :
    (s.writeAlu rx r).sp = s.sp := rfl
@[simp] theorem State.writeAlu_pc (rx : RegIdx) (r : Wide) :
    (s.writeAlu rx r).pc = s.pc := rfl
@[simp] theorem State.writeAlu_flags (rx : RegIdx) (r : Wide) :
    (s.writeAlu rx r).flags = s.flags.afterAlu r := rfl
@[simp] theorem State.writeAlu_live (rx : RegIdx) (r : Wide) :
    (s.writeAlu rx r).live = s.live := rfl
@[simp] theorem State.writeAlu_baseline (rx : RegIdx) (r : Wide) :
    (s.writeAlu rx r).baseline = s.baseline := rfl
@[simp] theorem State.writeAlu_instructionCount (rx : RegIdx) (r : Wide) :
    (s.writeAlu rx r).instructionCount = s.instructionCount := rfl
@[simp] theorem State.writeAlu_running (rx : RegIdx) (r : Wide) :
    (s.writeAlu rx r).running = s.running := rfl
@[simp] theorem State.writeAlu_status (rx : RegIdx) (r : Wide) :
    (s.writeAlu rx r).status = s.status := rfl
@[simp] theorem State.writeAlu_outcome (rx : RegIdx) (r : Wide) :
    (s.writeAlu rx r).outcome = .cont := rfl
@[simp] theorem State.writeAlu_hooks (rx : RegIdx) (r : Wide) :
    (s.writeAlu rx r).hooks = s.hooks := rfl
@[simp] theorem State.writeAlu_params (rx : RegIdx) (r : Wide) :
    (s.writeAlu rx r).params = s.params := rfl

/-- The number a carry-in makes of a result (40_alu.md R82). -/
theorem carryIn_toNat (aware bit0 carry : Bool) (r : Wide) :
    (carryIn aware bit0 carry r).toNat = (r.toNat + if aware && bit0 && carry then 1 else 0) % 2 ^ 32 := by
  have := r.isLt
  unfold carryIn
  split
  · simp
  · simp; omega

/-- The whole effect of an ALU routine (40_alu.md R80 to R82): the destination, the three flags, the answer. -/
theorem State.aluBinary_eq (f : Wide → Wide → Wide) (aware bit0 : Bool) (rx ry rz : RegIdx) :
    s.aluBinary f aware bit0 rx ry rz =
      s.writeAlu rx (carryIn aware bit0 s.flags.carry (f (widen (s.reg ry)) (widen (s.reg rz)))) := rfl

theorem State.reg_writeAlu (rx j : RegIdx) (r : Wide) :
    (s.writeAlu rx r).reg j = if j = rx then truncate r else s.reg j :=
  State.reg_setReg (s.setFlags (s.flags.afterAlu r)) rx j (truncate r)

@[simp] theorem State.writeShift_regs (rx : RegIdx) (res : Word) :
    (s.writeShift rx res).regs = s.regs.set rx.toNat res rx.isLt := rfl
@[simp] theorem State.writeShift_sp (rx : RegIdx) (res : Word) :
    (s.writeShift rx res).sp = s.sp := rfl
@[simp] theorem State.writeShift_pc (rx : RegIdx) (res : Word) :
    (s.writeShift rx res).pc = s.pc := rfl
@[simp] theorem State.writeShift_flags (rx : RegIdx) (res : Word) :
    (s.writeShift rx res).flags = s.flags.afterShift s.params.shiftWritesFlags res := rfl
@[simp] theorem State.writeShift_live (rx : RegIdx) (res : Word) :
    (s.writeShift rx res).live = s.live := rfl
@[simp] theorem State.writeShift_baseline (rx : RegIdx) (res : Word) :
    (s.writeShift rx res).baseline = s.baseline := rfl
@[simp] theorem State.writeShift_instructionCount (rx : RegIdx) (res : Word) :
    (s.writeShift rx res).instructionCount = s.instructionCount := rfl
@[simp] theorem State.writeShift_running (rx : RegIdx) (res : Word) :
    (s.writeShift rx res).running = s.running := rfl
@[simp] theorem State.writeShift_status (rx : RegIdx) (res : Word) :
    (s.writeShift rx res).status = s.status := rfl
@[simp] theorem State.writeShift_outcome (rx : RegIdx) (res : Word) :
    (s.writeShift rx res).outcome = .cont := rfl
@[simp] theorem State.writeShift_hooks (rx : RegIdx) (res : Word) :
    (s.writeShift rx res).hooks = s.hooks := rfl
@[simp] theorem State.writeShift_params (rx : RegIdx) (res : Word) :
    (s.writeShift rx res).params = s.params := rfl

theorem State.reg_writeShift (rx j : RegIdx) (res : Word) :
    (s.writeShift rx res).reg j = if j = rx then res else s.reg j :=
  State.reg_setReg s rx j res

/-- clearDivZero writes at most div_zero, and that only under DIV_CLEARS_DZ (40_alu.md R88). -/
theorem State.clearDivZero_cases :
    (s.params.divClearsDz = true ∧ s.clearDivZero = s.setFlags { s.flags with divZero := false }) ∨
    (s.params.divClearsDz = false ∧ s.clearDivZero = s) := by
  unfold State.clearDivZero
  cases h : s.params.divClearsDz <;> simp

/-! ## Control flow -/

/-- Everything a jump can do, in the order of its checks (41_control_flow.md R122; 60_exceptions.md R265). -/
theorem State.jump_cases (k : Cond) (t : Word) :
    (¬ s.pc.toNat + 1 < 0x7FFF ∧ s.jump k t = s.raise .operandOutOfRange) ∨
    (s.pc.toNat + 1 < 0x7FFF ∧ k.holds s.flags = false ∧ s.jump k t = s.complete) ∨
    (s.pc.toNat + 1 < 0x7FFF ∧ k.holds s.flags = true ∧ ¬ t.toNat ≤ 0x7FFF ∧
      s.jump k t = s.raise .invalidTarget) ∨
    (s.pc.toNat + 1 < 0x7FFF ∧ k.holds s.flags = true ∧ t.toNat ≤ 0x7FFF ∧
      s.jump k t = (s.redirect t).complete) := by
  unfold State.jump
  simp only [operandOk_iff, targetOk_iff]
  split_ifs with h1 h2 h3 <;> simp_all

/-- Everything a call can do, in the order of its checks (41_control_flow.md R138; 60_exceptions.md R265). -/
theorem State.call_cases (k : Cond) (t : Word) :
    (¬ s.pc.toNat + 1 < 0x7FFF ∧ s.call k t = s.raise .operandOutOfRange) ∨
    (s.pc.toNat + 1 < 0x7FFF ∧ k.holds s.flags = false ∧ s.call k t = s.complete) ∨
    (s.pc.toNat + 1 < 0x7FFF ∧ k.holds s.flags = true ∧ ¬ (0 < s.sp.toNat ∧ s.sp.toNat < 0x8000) ∧
      s.call k t = s.raise .invalidStackPointer) ∨
    (s.pc.toNat + 1 < 0x7FFF ∧ k.holds s.flags = true ∧ (0 < s.sp.toNat ∧ s.sp.toNat < 0x8000) ∧
      ¬ t.toNat ≤ 0x7FFF ∧ s.call k t = s.raise .invalidTarget) ∨
    (s.pc.toNat + 1 < 0x7FFF ∧ k.holds s.flags = true ∧ (0 < s.sp.toNat ∧ s.sp.toNat < 0x8000) ∧
      t.toNat ≤ 0x7FFF ∧
      s.call k t = (((s.writeWord s.sp s.returnAddress).setSp (s.sp - 1#16)).redirect t).complete) := by
  unfold State.call
  simp only [operandOk_iff, targetOk_iff, pushOk_iff]
  split_ifs with h1 h2 h3 h4 <;> simp_all

/-- A word with cond = 15 raises one of two faults (41_control_flow.md R121; 60_exceptions.md R265). -/
theorem State.reservedCondition_cases :
    (s.pc.toNat + 1 < 0x7FFF ∧ s.reservedCondition = s.raise .invalidCondition) ∨
    (¬ s.pc.toNat + 1 < 0x7FFF ∧ s.reservedCondition = s.raise .operandOutOfRange) := by
  unfold State.reservedCondition
  simp only [operandOk_iff]
  split_ifs <;> simp_all

/-! ## Memory and stack -/

/-- Everything a push can do (42_memory_stack.md R171, R172). -/
theorem State.push_cases (v : Word) :
    ((0 < s.sp.toNat ∧ s.sp.toNat < 0x8000) ∧
      s.push v = ((s.writeWord s.sp v).setSp (s.sp - 1#16)).complete) ∨
    (¬ (0 < s.sp.toNat ∧ s.sp.toNat < 0x8000) ∧ s.push v = s.raise .invalidStackPointer) := by
  unfold State.push
  simp only [pushOk_iff]
  split_ifs <;> simp_all

/-- Everything a load can do after the operand check (42_memory_stack.md R175). -/
theorem State.loadFrom_cases (rx : RegIdx) (a : Word) :
    (a.toNat < 0x7FFF ∧ s.loadFrom rx a = (s.setReg rx (s.readWord a)).complete) ∨
    (¬ a.toNat < 0x7FFF ∧ s.loadFrom rx a = s.raise .invalidAddress) := by
  unfold State.loadFrom
  simp only [dataOk_iff]
  split_ifs <;> simp_all

/-- Everything a store can do after the operand check (42_memory_stack.md R175). -/
theorem State.storeTo_cases (a v : Word) :
    (a.toNat < 0x7FFF ∧ s.storeTo a v = (s.writeWord a v).complete) ∨
    (¬ a.toNat < 0x7FFF ∧ s.storeTo a v = s.raise .invalidAddress) := by
  unfold State.storeTo
  simp only [dataOk_iff]
  split_ifs <;> simp_all

/-- A word written to the live memory: that word reads as written, every other byte as before. -/
theorem State.readByte_writeWord (a v : Word) (j : Nat) :
    (s.writeWord a v).readByte j =
      if j = 2 * a.toNat + 1 then lowByte v else if j = 2 * a.toNat then highByte v else s.readByte j :=
  Memory.readByte_writeWord s.live a v j

@[simp] theorem State.readWord_writeWord_same (a v : Word) : (s.writeWord a v).readWord a = v :=
  Memory.readWord_writeWord_same s.live a v

theorem State.readWord_writeWord_other (a b v : Word) (h : b ≠ a) :
    (s.writeWord a v).readWord b = s.readWord b :=
  Memory.readWord_writeWord_other s.live a b v h

/-! ## Hooks -/

/-- What the input hook's answer leads to (43_io_system.md R192). -/
theorem State.takeKey_cases (rx : RegIdx) (res : Config.InputAnswer) :
    (∃ v, res = .key v ∧ s.takeKey rx res = (s.setReg rx (v.setWidth 16)).complete) ∨
    (res = .fault ∧ s.takeKey rx res = s.raise .ioFaultInput) := by
  cases res with
  | key v => exact .inl ⟨v, rfl, rfl⟩
  | fault => exact .inr ⟨rfl, rfl⟩

/-- What the output hook's answer leads to (43_io_system.md R193). -/
theorem State.takeAnswer_cases (res : Config.OutputAnswer) :
    (res = .ok ∧ s.takeAnswer res = s.complete) ∨
    (res = .fault ∧ s.takeAnswer res = s.raise .ioFaultOutput) := by
  cases res with
  | ok => exact .inl ⟨rfl, rfl⟩
  | fault => exact .inr ⟨rfl, rfl⟩

/-! ## The step -/

/-- Everything a step can do (44_execution_engine.md R210). -/
theorem step_cases {s t : State} (h : step s = .next t) :
    (¬ s.pc.toNat < 0x7FFF ∧ t = s.faultPcOutOfRange) ∨
    (s.pc.toNat < 0x7FFF ∧ s.fetch = none ∧ t = s.faultUnknown) ∨
    (s.pc.toNat < 0x7FFF ∧ ∃ i u, s.fetch = some i ∧ exec i s = .next u ∧ t = u.retire i.size) := by
  unfold step at h
  simp only [fetchOk_iff] at h
  split_ifs at h with hpc
  · cases hf : s.fetch with
    | none =>
      rw [hf] at h
      cases h
      exact .inr (.inl ⟨hpc, rfl, rfl⟩)
    | some i =>
      rw [hf] at h
      cases he : exec i s with
      | next u =>
        simp only [he] at h
        cases h
        exact .inr (.inr ⟨hpc, i, u, rfl, he, rfl⟩)
      | fault r => simp [he] at h
      | refused r => simp [he] at h
  · cases h
    exact .inl ⟨hpc, rfl⟩

end Sys2Proof.Machine
end

