-- ==== Sys2Proof/Laws/Fetch.lean ====
section
/-! SUPPORT. What the opcode table, the decoder and the fetch answer, said once. -/

namespace Sys2Proof

theorem highByte_wordOfBytes (hi lo : Byte) : highByte (wordOfBytes hi lo) = hi := by
  unfold highByte wordOfBytes; ext i h; grind

theorem lowByte_wordOfBytes (hi lo : Byte) : lowByte (wordOfBytes hi lo) = lo := by
  unfold lowByte wordOfBytes; ext i h; grind

/-- A size of the table is 1 or 2 (30_encoding.md R56). -/
theorem opcodeSize_cases (extras : Bool) (op : Nat) :
    opcodeSize extras op = none ∨ opcodeSize extras op = some 1 ∨ opcodeSize extras op = some 2 := by
  unfold opcodeSize
  split <;> simp_all

/-- No table entry, no instruction (30_encoding.md R58). -/
theorem decodeWord_of_opcodeSize_none {extras : Bool} {w : Word} (imm : Word)
    (h : opcodeSize extras (opcodeField w).toNat = none) :
    decodeWord extras w imm = .error (.unknownInstruction (opcodeField w)) := by
  unfold decodeWord
  unfold opcodeSize at h
  split at h <;> simp_all

/-- A table entry, an instruction (30_encoding.md R56). -/
theorem decodeWord_of_opcodeSize_some {extras : Bool} {w : Word} (imm : Word)
    (h : opcodeSize extras (opcodeField w).toNat ≠ none) :
    ∃ i, decodeWord extras w imm = .ok i := by
  unfold decodeWord
  generalize (opcodeField w).toNat = n at h
  unfold opcodeSize at h
  split at h <;> (try cases extras) <;> simp_all

/-- A 1-word instruction does not depend on the word after it (30_encoding.md R54). -/
theorem decodeWord_of_opcodeSize_one {extras : Bool} {w : Word} (imm : Word)
    (h : opcodeSize extras (opcodeField w).toNat = some 1) :
    decodeWord extras w imm = decodeWord extras w 0#16 := by
  unfold decodeWord
  unfold opcodeSize at h
  split at h <;> simp_all

namespace Machine

theorem State.fetchBytes_eq {s : State} (h : s.pc.toNat < 0x7FFF) :
    s.fetchBytes = bytesOfWords [s.readWord s.pc, s.readWord (s.pc + 1#16)] := by
  have e : (s.pc + 1#16).toNat = s.pc.toNat + 1 := by
    rw [BitVec.toNat_add]; exact Nat.mod_eq_of_lt (by simp; omega)
  simp only [State.fetchBytes, bytesOfWords, State.readWord, Memory.readWord, e, State.readByte,
    List.flatMap_cons, List.flatMap_nil, List.cons_append, List.nil_append, highByte_wordOfBytes,
    lowByte_wordOfBytes, Nat.mul_add]

/-- The fetch in words: the instruction M[pc] and M[pc + 1] stand for (44_execution_engine.md R210). -/
theorem State.fetch_eq {s : State} (h : s.pc.toNat < 0x7FFF) :
    s.fetch = (decodeWord s.params.icmcExtras (s.readWord s.pc) (s.readWord (s.pc + 1#16))).toOption := by
  unfold State.fetch
  rw [State.fetchBytes_eq h]
  generalize s.readWord s.pc = w
  generalize s.readWord (s.pc + 1#16) = imm
  simp only [bytesOfWords, List.flatMap_cons, List.flatMap_nil, List.cons_append, List.nil_append, decode,
    wordOfBytes_high_low]
  rcases opcodeSize_cases s.params.icmcExtras (opcodeField w).toNat with h0 | h1 | h2
  · rw [h0, decodeWord_of_opcodeSize_none imm h0]; rfl
  · rw [h1, decodeWord_of_opcodeSize_one imm h1]
    cases decodeWord s.params.icmcExtras w 0#16 <;> rfl
  · rw [h2]
    cases decodeWord s.params.icmcExtras w imm <;> rfl

end Machine

end Sys2Proof
end

