-- ==== Sys2Proof/Laws/PerInstr.lean ====
section
/-!
SUPPORT. The families of statements made per instruction: each has a Statement about the instruction as syntax
and one lemma per constructor of Instr.
-/

namespace Sys2Proof.Laws

/-- An encoding has as many words as the opcode table's entry says, with every optional entry present
(30_encoding.md R56). -/
def EncodedLength.Statement (i : Instr) : Prop :=
  opcodeSize true (opcodeField (encodeFirst i)).toNat = some (encode i).length ∧ i.size = (encode i).length

/-- The table entry of a word, from its opcode. -/
theorem opcodeSize_of_field {w : Word} {op : BitVec 6} {n : Nat} (hop : opcodeField w = op)
    (hn : opcodeSize true op.toNat = some n) : opcodeSize true (opcodeField w).toNat = some n :=
  hop ▸ hn

theorem EncodedLength.add (rx : RegIdx) (ry : RegIdx) (rz : RegIdx) : EncodedLength.Statement (.add rx ry rz) :=
  ⟨opcodeSize_of_field (opcodeField_encodeF3R _ _ _ _ _) rfl, rfl⟩
theorem EncodedLength.addc (rx : RegIdx) (ry : RegIdx) (rz : RegIdx) : EncodedLength.Statement (.addc rx ry rz) :=
  ⟨opcodeSize_of_field (opcodeField_encodeF3R _ _ _ _ _) rfl, rfl⟩
theorem EncodedLength.sub (rx : RegIdx) (ry : RegIdx) (rz : RegIdx) : EncodedLength.Statement (.sub rx ry rz) :=
  ⟨opcodeSize_of_field (opcodeField_encodeF3R _ _ _ _ _) rfl, rfl⟩
theorem EncodedLength.subc (rx : RegIdx) (ry : RegIdx) (rz : RegIdx) : EncodedLength.Statement (.subc rx ry rz) :=
  ⟨opcodeSize_of_field (opcodeField_encodeF3R _ _ _ _ _) rfl, rfl⟩
theorem EncodedLength.mult (rx : RegIdx) (ry : RegIdx) (rz : RegIdx) (c : Bool) : EncodedLength.Statement (.mult rx ry rz c) :=
  ⟨opcodeSize_of_field (opcodeField_encodeF3R _ _ _ _ _) rfl, rfl⟩
theorem EncodedLength.div (rx : RegIdx) (ry : RegIdx) (rz : RegIdx) (c : Bool) : EncodedLength.Statement (.div rx ry rz c) :=
  ⟨opcodeSize_of_field (opcodeField_encodeF3R _ _ _ _ _) rfl, rfl⟩
theorem EncodedLength.mod (rx : RegIdx) (ry : RegIdx) (rz : RegIdx) (c : Bool) : EncodedLength.Statement (.mod rx ry rz c) :=
  ⟨opcodeSize_of_field (opcodeField_encodeF3R _ _ _ _ _) rfl, rfl⟩
theorem EncodedLength.inc (rx : RegIdx) : EncodedLength.Statement (.inc rx) :=
  ⟨opcodeSize_of_field (opcodeField_encodeFRB _ _ _) rfl, rfl⟩
theorem EncodedLength.dec (rx : RegIdx) : EncodedLength.Statement (.dec rx) :=
  ⟨opcodeSize_of_field (opcodeField_encodeFRB _ _ _) rfl, rfl⟩
theorem EncodedLength.and (rx : RegIdx) (ry : RegIdx) (rz : RegIdx) (c : Bool) : EncodedLength.Statement (.and rx ry rz c) :=
  ⟨opcodeSize_of_field (opcodeField_encodeF3R _ _ _ _ _) rfl, rfl⟩
theorem EncodedLength.or (rx : RegIdx) (ry : RegIdx) (rz : RegIdx) (c : Bool) : EncodedLength.Statement (.or rx ry rz c) :=
  ⟨opcodeSize_of_field (opcodeField_encodeF3R _ _ _ _ _) rfl, rfl⟩
theorem EncodedLength.xor (rx : RegIdx) (ry : RegIdx) (rz : RegIdx) (c : Bool) : EncodedLength.Statement (.xor rx ry rz c) :=
  ⟨opcodeSize_of_field (opcodeField_encodeF3R _ _ _ _ _) rfl, rfl⟩
theorem EncodedLength.not (rx : RegIdx) (ry : RegIdx) : EncodedLength.Statement (.not rx ry) :=
  ⟨opcodeSize_of_field (opcodeField_encodeF2R _ _ _) rfl, rfl⟩
theorem EncodedLength.shiftl0 (rx : RegIdx) (n : Shamt) : EncodedLength.Statement (.shiftl0 rx n) :=
  ⟨opcodeSize_of_field (opcodeField_encodeFSH _ _ _ _) rfl, rfl⟩
theorem EncodedLength.shiftl1 (rx : RegIdx) (n : Shamt) : EncodedLength.Statement (.shiftl1 rx n) :=
  ⟨opcodeSize_of_field (opcodeField_encodeFSH _ _ _ _) rfl, rfl⟩
theorem EncodedLength.shiftr0 (rx : RegIdx) (n : Shamt) : EncodedLength.Statement (.shiftr0 rx n) :=
  ⟨opcodeSize_of_field (opcodeField_encodeFSH _ _ _ _) rfl, rfl⟩
theorem EncodedLength.shiftr1 (rx : RegIdx) (n : Shamt) : EncodedLength.Statement (.shiftr1 rx n) :=
  ⟨opcodeSize_of_field (opcodeField_encodeFSH _ _ _ _) rfl, rfl⟩
theorem EncodedLength.rotl (rx : RegIdx) (n : Shamt) : EncodedLength.Statement (.rotl rx n) :=
  ⟨opcodeSize_of_field (opcodeField_encodeFSH _ _ _ _) rfl, rfl⟩
theorem EncodedLength.rotr (rx : RegIdx) (n : Shamt) : EncodedLength.Statement (.rotr rx n) :=
  ⟨opcodeSize_of_field (opcodeField_encodeFSH _ _ _ _) rfl, rfl⟩
theorem EncodedLength.movRxRy (rx : RegIdx) (ry : RegIdx) : EncodedLength.Statement (.movRxRy rx ry) :=
  ⟨opcodeSize_of_field (opcodeField_encodeFMV _ _ _ _) rfl, rfl⟩
theorem EncodedLength.movRxSp (rx : RegIdx) : EncodedLength.Statement (.movRxSp rx) :=
  ⟨opcodeSize_of_field (opcodeField_encodeFMV _ _ _ _) rfl, rfl⟩
theorem EncodedLength.movSpRx (rx : RegIdx) : EncodedLength.Statement (.movSpRx rx) :=
  ⟨opcodeSize_of_field (opcodeField_encodeFMV _ _ _ _) rfl, rfl⟩
theorem EncodedLength.cmp (rx : RegIdx) (ry : RegIdx) : EncodedLength.Statement (.cmp rx ry) :=
  ⟨opcodeSize_of_field (opcodeField_encodeF2R _ _ _) rfl, rfl⟩
theorem EncodedLength.jmp (target : Word) : EncodedLength.Statement (.jmp target) :=
  ⟨opcodeSize_of_field (opcodeField_encodeFCW _ _) rfl, rfl⟩
theorem EncodedLength.jeq (target : Word) : EncodedLength.Statement (.jeq target) :=
  ⟨opcodeSize_of_field (opcodeField_encodeFCW _ _) rfl, rfl⟩
theorem EncodedLength.jne (target : Word) : EncodedLength.Statement (.jne target) :=
  ⟨opcodeSize_of_field (opcodeField_encodeFCW _ _) rfl, rfl⟩
theorem EncodedLength.jz (target : Word) : EncodedLength.Statement (.jz target) :=
  ⟨opcodeSize_of_field (opcodeField_encodeFCW _ _) rfl, rfl⟩
theorem EncodedLength.jnz (target : Word) : EncodedLength.Statement (.jnz target) :=
  ⟨opcodeSize_of_field (opcodeField_encodeFCW _ _) rfl, rfl⟩
theorem EncodedLength.jc (target : Word) : EncodedLength.Statement (.jc target) :=
  ⟨opcodeSize_of_field (opcodeField_encodeFCW _ _) rfl, rfl⟩
theorem EncodedLength.jnc (target : Word) : EncodedLength.Statement (.jnc target) :=
  ⟨opcodeSize_of_field (opcodeField_encodeFCW _ _) rfl, rfl⟩
theorem EncodedLength.jgr (target : Word) : EncodedLength.Statement (.jgr target) :=
  ⟨opcodeSize_of_field (opcodeField_encodeFCW _ _) rfl, rfl⟩
theorem EncodedLength.jle (target : Word) : EncodedLength.Statement (.jle target) :=
  ⟨opcodeSize_of_field (opcodeField_encodeFCW _ _) rfl, rfl⟩
theorem EncodedLength.jeg (target : Word) : EncodedLength.Statement (.jeg target) :=
  ⟨opcodeSize_of_field (opcodeField_encodeFCW _ _) rfl, rfl⟩
theorem EncodedLength.jel (target : Word) : EncodedLength.Statement (.jel target) :=
  ⟨opcodeSize_of_field (opcodeField_encodeFCW _ _) rfl, rfl⟩
theorem EncodedLength.jov (target : Word) : EncodedLength.Statement (.jov target) :=
  ⟨opcodeSize_of_field (opcodeField_encodeFCW _ _) rfl, rfl⟩
theorem EncodedLength.jno (target : Word) : EncodedLength.Statement (.jno target) :=
  ⟨opcodeSize_of_field (opcodeField_encodeFCW _ _) rfl, rfl⟩
theorem EncodedLength.jdz (target : Word) : EncodedLength.Statement (.jdz target) :=
  ⟨opcodeSize_of_field (opcodeField_encodeFCW _ _) rfl, rfl⟩
theorem EncodedLength.jn (target : Word) : EncodedLength.Statement (.jn target) :=
  ⟨opcodeSize_of_field (opcodeField_encodeFCW _ _) rfl, rfl⟩
theorem EncodedLength.jcond15 (target : Word) : EncodedLength.Statement (.jcond15 target) :=
  ⟨opcodeSize_of_field (opcodeField_encodeFCW _ _) rfl, rfl⟩
theorem EncodedLength.call (target : Word) : EncodedLength.Statement (.call target) :=
  ⟨opcodeSize_of_field (opcodeField_encodeFCW _ _) rfl, rfl⟩
theorem EncodedLength.ceq (target : Word) : EncodedLength.Statement (.ceq target) :=
  ⟨opcodeSize_of_field (opcodeField_encodeFCW _ _) rfl, rfl⟩
theorem EncodedLength.cne (target : Word) : EncodedLength.Statement (.cne target) :=
  ⟨opcodeSize_of_field (opcodeField_encodeFCW _ _) rfl, rfl⟩
theorem EncodedLength.cz (target : Word) : EncodedLength.Statement (.cz target) :=
  ⟨opcodeSize_of_field (opcodeField_encodeFCW _ _) rfl, rfl⟩
theorem EncodedLength.cnz (target : Word) : EncodedLength.Statement (.cnz target) :=
  ⟨opcodeSize_of_field (opcodeField_encodeFCW _ _) rfl, rfl⟩
theorem EncodedLength.cc (target : Word) : EncodedLength.Statement (.cc target) :=
  ⟨opcodeSize_of_field (opcodeField_encodeFCW _ _) rfl, rfl⟩
theorem EncodedLength.cnc (target : Word) : EncodedLength.Statement (.cnc target) :=
  ⟨opcodeSize_of_field (opcodeField_encodeFCW _ _) rfl, rfl⟩
theorem EncodedLength.cgr (target : Word) : EncodedLength.Statement (.cgr target) :=
  ⟨opcodeSize_of_field (opcodeField_encodeFCW _ _) rfl, rfl⟩
theorem EncodedLength.cle (target : Word) : EncodedLength.Statement (.cle target) :=
  ⟨opcodeSize_of_field (opcodeField_encodeFCW _ _) rfl, rfl⟩
theorem EncodedLength.ceg (target : Word) : EncodedLength.Statement (.ceg target) :=
  ⟨opcodeSize_of_field (opcodeField_encodeFCW _ _) rfl, rfl⟩
theorem EncodedLength.cel (target : Word) : EncodedLength.Statement (.cel target) :=
  ⟨opcodeSize_of_field (opcodeField_encodeFCW _ _) rfl, rfl⟩
theorem EncodedLength.cov (target : Word) : EncodedLength.Statement (.cov target) :=
  ⟨opcodeSize_of_field (opcodeField_encodeFCW _ _) rfl, rfl⟩
theorem EncodedLength.cno (target : Word) : EncodedLength.Statement (.cno target) :=
  ⟨opcodeSize_of_field (opcodeField_encodeFCW _ _) rfl, rfl⟩
theorem EncodedLength.cdz (target : Word) : EncodedLength.Statement (.cdz target) :=
  ⟨opcodeSize_of_field (opcodeField_encodeFCW _ _) rfl, rfl⟩
theorem EncodedLength.cn (target : Word) : EncodedLength.Statement (.cn target) :=
  ⟨opcodeSize_of_field (opcodeField_encodeFCW _ _) rfl, rfl⟩
theorem EncodedLength.ccond15 (target : Word) : EncodedLength.Statement (.ccond15 target) :=
  ⟨opcodeSize_of_field (opcodeField_encodeFCW _ _) rfl, rfl⟩
theorem EncodedLength.rts : EncodedLength.Statement .rts :=
  ⟨opcodeSize_of_field (opcodeField_encodeFN _) rfl, rfl⟩
theorem EncodedLength.pushRx (rx : RegIdx) : EncodedLength.Statement (.pushRx rx) :=
  ⟨opcodeSize_of_field (opcodeField_encodeFRB _ _ _) rfl, rfl⟩
theorem EncodedLength.pushFr : EncodedLength.Statement .pushFr :=
  ⟨opcodeSize_of_field (opcodeField_encodeFRB _ _ _) rfl, rfl⟩
theorem EncodedLength.popRx (rx : RegIdx) : EncodedLength.Statement (.popRx rx) :=
  ⟨opcodeSize_of_field (opcodeField_encodeFRB _ _ _) rfl, rfl⟩
theorem EncodedLength.popFr : EncodedLength.Statement .popFr :=
  ⟨opcodeSize_of_field (opcodeField_encodeFRB _ _ _) rfl, rfl⟩
theorem EncodedLength.load (rx : RegIdx) (addr : Word) : EncodedLength.Statement (.load rx addr) :=
  ⟨opcodeSize_of_field (opcodeField_encodeF1 _ _) rfl, rfl⟩
theorem EncodedLength.store (rx : RegIdx) (addr : Word) : EncodedLength.Statement (.store rx addr) :=
  ⟨opcodeSize_of_field (opcodeField_encodeF1 _ _) rfl, rfl⟩
theorem EncodedLength.loadn (rx : RegIdx) (imm : Word) : EncodedLength.Statement (.loadn rx imm) :=
  ⟨opcodeSize_of_field (opcodeField_encodeF1 _ _) rfl, rfl⟩
theorem EncodedLength.loadi (rx : RegIdx) (ry : RegIdx) : EncodedLength.Statement (.loadi rx ry) :=
  ⟨opcodeSize_of_field (opcodeField_encodeF2R _ _ _) rfl, rfl⟩
theorem EncodedLength.storei (rx : RegIdx) (ry : RegIdx) : EncodedLength.Statement (.storei rx ry) :=
  ⟨opcodeSize_of_field (opcodeField_encodeF2R _ _ _) rfl, rfl⟩
theorem EncodedLength.inchar (rx : RegIdx) : EncodedLength.Statement (.inchar rx) :=
  ⟨opcodeSize_of_field (opcodeField_encodeF1 _ _) rfl, rfl⟩
theorem EncodedLength.outchar (rx : RegIdx) (ry : RegIdx) : EncodedLength.Statement (.outchar rx ry) :=
  ⟨opcodeSize_of_field (opcodeField_encodeF2R _ _ _) rfl, rfl⟩
theorem EncodedLength.halt : EncodedLength.Statement .halt :=
  ⟨opcodeSize_of_field (opcodeField_encodeFN _) rfl, rfl⟩
theorem EncodedLength.breakp : EncodedLength.Statement .breakp :=
  ⟨opcodeSize_of_field (opcodeField_encodeFN _) rfl, rfl⟩
theorem EncodedLength.nop : EncodedLength.Statement .nop :=
  ⟨opcodeSize_of_field (opcodeField_encodeFN _) rfl, rfl⟩
theorem EncodedLength.setc : EncodedLength.Statement .setc :=
  ⟨opcodeSize_of_field (opcodeField_encodeFSC _ _) rfl, rfl⟩
theorem EncodedLength.clearc : EncodedLength.Statement .clearc :=
  ⟨opcodeSize_of_field (opcodeField_encodeFSC _ _) rfl, rfl⟩

end Sys2Proof.Laws
end

