-- ==== Sys2Proof/Tests/Slice0.lean ====
section
/-!
SUPPORT. The model's own tests. Expected results are those of 95_test_vectors.md (a test's name holds the
vector's id) or of the rule named; then one witness for the hypotheses of each statement.
-/

namespace Sys2Proof.Tests

open Sys2Proof Sys2Proof.Machine Sys2Proof.Config

/-- The reset machine with words from `pc` on, PC there, and host edits. -/
def boot (pc : Word) (ws : List Word) (es : List HostEdit) : State :=
  State.editAll (place pc ws (State.reset.setPc pc)) es
where
  /-- Words written one after the other. -/
  place (a : Word) : List Word → State → State
    | [], s => s
    | w :: ws, s => place (a + 1#16) ws (s.writeWord a w)

/-- What one step leads to passes a check. -/
def checkStep (s : State) (p : State → Bool) : Bool :=
  match step s with
  | .next t => p t
  | _ => false

/-- What the meaning alone leads to passes a check. -/
def checkExec (i : Instr) (s : State) (p : State → Bool) : Bool :=
  match exec i s with
  | .next t => p t
  | _ => false

/-- The kind of fault answered. -/
def faultKind : StepOutcome → Option Fault
  | .fault f => some f.kind
  | _ => none

/-- Flags with exactly the named ones set. -/
def fr (names : List FlagName) : Flags := names.foldl (fun f n => f.set n true) Flags.clear

/-- Each first word, with the second word 0x1234, decodes to the instruction beside it. -/
def decodesTo (rows : List (Word × Instr)) : Bool :=
  rows.all fun r => decide (decodeWord true r.1 0x1234#16 = .ok r.2)

/-! ## One step, arithmetic -/

theorem test_ARI1_add :
    checkStep (boot 0x0010#16 [0x80A6#16] [.writeRegister 2 0xFFFF#16, .writeRegister 3 0x0001#16])
      (fun t => t.flags == fr [.zero, .carry] && t.pc == 0x0011#16) = true := by decide

theorem test_ARI5_add_ignores_carry :
    checkStep (boot 0x0010#16 [0x80A6#16] [.writeRegister 2 0x0002#16, .writeRegister 3 0x0003#16, .writeFlag .carry true])
      (fun t => t.reg 1 == 0x0005#16 && t.flags == fr [] && t.pc == 0x0011#16) = true := by decide

theorem test_ARI8_addc :
    checkStep (boot 0x0010#16 [0x80A7#16] [.writeRegister 2 0x0002#16, .writeRegister 3 0x0003#16, .writeFlag .carry true])
      (fun t => t.reg 1 == 0x0006#16 && t.flags == fr [] && t.pc == 0x0011#16) = true := by decide

theorem test_ARI10_addc_wraps :
    checkStep (boot 0x0010#16 [0x80A7#16] [.writeRegister 2 0xFFFF#16, .writeRegister 3 0x0000#16, .writeFlag .carry true])
      (fun t => t.flags == fr [.zero, .carry] && t.pc == 0x0011#16) = true := by decide

theorem test_ARI11_sub_borrows :
    checkStep (boot 0x0010#16 [0x84A6#16] [.writeRegister 2 0x0003#16, .writeRegister 3 0x0005#16])
      (fun t => t.reg 1 == 0xFFFE#16 && t.flags == fr [.carry, .negative] && t.pc == 0x0011#16) = true := by decide

theorem test_ARI14_sub_zero_minus_one :
    checkStep (boot 0x0010#16 [0x84A6#16] [.writeRegister 2 0x0000#16, .writeRegister 3 0x0001#16])
      (fun t => t.reg 1 == 0xFFFF#16 && t.flags == fr [.carry, .negative] && t.pc == 0x0011#16) = true := by decide

theorem test_ARI15_subc_adds_the_carry :
    checkStep (boot 0x0010#16 [0x84A7#16] [.writeRegister 2 0x0003#16, .writeRegister 3 0x0004#16, .writeFlag .carry true])
      (fun t => t.flags == fr [.zero] && t.pc == 0x0011#16) = true := by decide

theorem test_ARI16_subc_equal :
    checkStep (boot 0x0010#16 [0x84A7#16] [.writeRegister 2 0x0005#16, .writeRegister 3 0x0005#16, .writeFlag .carry true])
      (fun t => t.reg 1 == 0x0001#16 && t.flags == fr [] && t.pc == 0x0011#16) = true := by decide

theorem test_ARI18_mult_overflows :
    checkStep (boot 0x0010#16 [0x88A6#16] [.writeRegister 2 0x0100#16, .writeRegister 3 0x0100#16])
      (fun t => t.flags == fr [.zero, .carry] && t.pc == 0x0011#16) = true := by decide

theorem test_ARI20_mult_largest :
    checkStep (boot 0x0010#16 [0x88A6#16] [.writeRegister 2 0xFFFF#16, .writeRegister 3 0xFFFF#16])
      (fun t => t.reg 1 == 0x0001#16 && t.flags == fr [.carry] && t.pc == 0x0011#16) = true := by decide

theorem test_ARI23_div_by_zero :
    checkStep (boot 0x0010#16 [0x8CA6#16] [.writeRegister 1 0x1111#16, .writeRegister 2 0x0007#16, .writeRegister 3 0x0000#16, .writeFlag .zero true])
      (fun t => t.flags == fr [.zero, .divZero] && t.pc == 0x0011#16) = true := by decide

theorem test_ARI24_div_by_one :
    checkStep (boot 0x0010#16 [0x8CA6#16] [.writeRegister 2 0xFFFF#16, .writeRegister 3 0x0001#16])
      (fun t => t.reg 1 == 0xFFFF#16 && t.flags == fr [.negative] && t.pc == 0x0011#16) = true := by decide

theorem test_ARI31_mod :
    checkStep (boot 0x0010#16 [0x94A6#16] [.writeRegister 2 0xFFFF#16, .writeRegister 3 0x8000#16])
      (fun t => t.reg 1 == 0x7FFF#16 && t.flags == fr [] && t.pc == 0x0011#16) = true := by decide

theorem test_ARI32_mod_by_zero :
    checkStep (boot 0x0010#16 [0x94A6#16] [.writeRegister 1 0x1111#16, .writeRegister 2 0x0005#16, .writeRegister 3 0x0000#16])
      (fun t => faultKind t.outcome == some .modByZero && t.flags == fr [] && t.pc == 0x0011#16) = true := by decide

theorem test_ARI34_inc_wraps :
    checkStep (boot 0x0010#16 [0x9080#16] [.writeRegister 1 0xFFFF#16])
      (fun t => t.reg 1 == 0x0000#16 && t.flags == fr [.zero, .carry] && t.pc == 0x0011#16) = true := by decide

theorem test_ENG2_inc_at_last_word :
    checkStep (boot 0x7FFE#16 [0x9080#16] [])
      (fun t => t.reg 1 == 0x0001#16 && t.flags == fr [] && t.pc == 0x7FFF#16) = true := by decide

theorem test_ARI37_dec_wraps :
    checkStep (boot 0x0010#16 [0x90C0#16] [.writeRegister 1 0x0000#16])
      (fun t => t.reg 1 == 0xFFFF#16 && t.flags == fr [.carry, .negative] && t.pc == 0x0011#16) = true := by decide

theorem test_ARI38_dec :
    checkStep (boot 0x0010#16 [0x90C0#16] [.writeRegister 1 0x8000#16])
      (fun t => t.reg 1 == 0x7FFF#16 && t.flags == fr [] && t.pc == 0x0011#16) = true := by decide

/-! ## One step, logic, shift and move -/

theorem test_LOG1_and :
    checkStep (boot 0x0010#16 [0x48A6#16] [.writeRegister 2 0xF0F0#16, .writeRegister 3 0xFF00#16])
      (fun t => t.reg 1 == 0xF000#16 && t.flags == fr [.negative] && t.pc == 0x0011#16) = true := by decide

theorem test_LOG2_and_clears_carry :
    checkStep (boot 0x0010#16 [0x48A6#16] [.writeRegister 2 0x0F0F#16, .writeRegister 3 0xF0F0#16, .writeFlag .carry true])
      (fun t => t.flags == fr [.zero] && t.pc == 0x0011#16) = true := by decide

theorem test_LOG3_or :
    checkStep (boot 0x0010#16 [0x4CA6#16] [.writeRegister 2 0x00F0#16, .writeRegister 3 0x000F#16])
      (fun t => t.reg 1 == 0x00FF#16 && t.flags == fr [] && t.pc == 0x0011#16) = true := by decide

theorem test_LOG5_xor :
    checkStep (boot 0x0010#16 [0x50A6#16] [.writeRegister 2 0xFFFF#16, .writeRegister 3 0x0F0F#16])
      (fun t => t.reg 1 == 0xF0F0#16 && t.flags == fr [.negative] && t.pc == 0x0011#16) = true := by decide

theorem test_LOG6_xor_self :
    checkStep (boot 0x0010#16 [0x50A4#16] [.writeRegister 1 0x0005#16, .writeRegister 2 0x1234#16])
      (fun t => t.reg 1 == 0x0000#16 && t.flags == fr [.zero] && t.pc == 0x0011#16) = true := by decide

theorem test_LOG7_not_keeps_flags :
    checkStep (boot 0x0010#16 [0x54A0#16] [.writeRegister 2 0x00FF#16, .writeFlag .zero true])
      (fun t => t.reg 1 == 0xFF00#16 && t.flags == fr [.zero] && t.pc == 0x0011#16) = true := by decide

theorem test_SHF1_shiftl0 :
    checkStep (boot 0x0010#16 [0x4081#16] [.writeRegister 1 0x8001#16])
      (fun t => t.reg 1 == 0x0002#16 && t.flags == fr [] && t.pc == 0x0011#16) = true := by decide

theorem test_SHF19_shiftl0_writes_flags :
    checkStep { boot 0x0010#16 [0x4081#16] [.writeRegister 1 0x8000#16, .writeFlag .carry true] with params := { Params.default with shiftWritesFlags := true } }
      (fun t => t.reg 1 == 0x0000#16 && t.flags == fr [.zero, .carry] && t.pc == 0x0011#16) = true := by decide

theorem test_SHF4_shiftl1 :
    checkStep (boot 0x0010#16 [0x4094#16] [.writeRegister 1 0x0001#16])
      (fun t => t.reg 1 == 0x001F#16 && t.flags == fr [] && t.pc == 0x0011#16) = true := by decide

theorem test_SHF5_shiftl1_15 :
    checkStep (boot 0x0010#16 [0x409F#16] [.writeRegister 1 0x0000#16])
      (fun t => t.reg 1 == 0x7FFF#16 && t.flags == fr [] && t.pc == 0x0011#16) = true := by decide

theorem test_SHF6_shiftr0_15 :
    checkStep (boot 0x0010#16 [0x40AF#16] [.writeRegister 1 0x8000#16])
      (fun t => t.reg 1 == 0x0001#16 && t.flags == fr [] && t.pc == 0x0011#16) = true := by decide

theorem test_SHF7_shiftr0 :
    checkStep (boot 0x0010#16 [0x40A4#16] [.writeRegister 1 0x1234#16])
      (fun t => t.reg 1 == 0x0123#16 && t.flags == fr [] && t.pc == 0x0011#16) = true := by decide

theorem test_SHF8_shiftr1 :
    checkStep (boot 0x0010#16 [0x40B4#16] [.writeRegister 1 0x0000#16])
      (fun t => t.reg 1 == 0xF000#16 && t.flags == fr [] && t.pc == 0x0011#16) = true := by decide

theorem test_SHF9_shiftr1_positive :
    checkStep (boot 0x0010#16 [0x40B1#16] [.writeRegister 1 0x0002#16])
      (fun t => t.reg 1 == 0x8001#16 && t.flags == fr [] && t.pc == 0x0011#16) = true := by decide

theorem test_SHF11_rotl :
    checkStep (boot 0x0010#16 [0x40C1#16] [.writeRegister 1 0x8001#16])
      (fun t => t.reg 1 == 0x0003#16 && t.flags == fr [] && t.pc == 0x0011#16) = true := by decide

theorem test_SHF12_rotl_alias :
    checkStep (boot 0x0010#16 [0x40D1#16] [.writeRegister 1 0x8001#16])
      (fun t => t.reg 1 == 0x0003#16 && t.flags == fr [] && t.pc == 0x0011#16) = true := by decide

theorem test_SHF15_rotr :
    checkStep (boot 0x0010#16 [0x40E1#16] [.writeRegister 1 0x0001#16])
      (fun t => t.reg 1 == 0x8000#16 && t.flags == fr [] && t.pc == 0x0011#16) = true := by decide

theorem test_SHF16_rotr_alias :
    checkStep (boot 0x0010#16 [0x40F4#16] [.writeRegister 1 0x1234#16])
      (fun t => t.reg 1 == 0x4123#16 && t.flags == fr [] && t.pc == 0x0011#16) = true := by decide

theorem test_MOV1_mov :
    checkStep (boot 0x0010#16 [0xCCA0#16] [.writeRegister 2 0x1234#16])
      (fun t => t.reg 1 == 0x1234#16 && t.flags == fr [] && t.pc == 0x0011#16) = true := by decide

theorem test_MOV2_mov_alias :
    checkStep (boot 0x0010#16 [0xCCA2#16] [.writeRegister 2 0x1234#16])
      (fun t => t.reg 1 == 0x1234#16 && t.flags == fr [] && t.pc == 0x0011#16) = true := by decide

theorem test_MOV3_mov_from_sp :
    checkStep (boot 0x0010#16 [0xCC81#16] [])
      (fun t => t.reg 1 == 0x7FFE#16 && t.flags == fr [] && t.pc == 0x0011#16) = true := by decide

theorem test_MOV5_mov_into_sp :
    checkStep (boot 0x0010#16 [0xCC83#16] [.writeRegister 1 0x7FFF#16])
      (fun t => t.sp == 0x7FFF#16 && t.flags == fr [] && t.pc == 0x0011#16) = true := by decide

theorem test_MOV7_mov_into_sp_too_large :
    checkStep (boot 0x0010#16 [0xCC83#16] [.writeRegister 1 0x8000#16])
      (fun t => faultKind t.outcome == some .invalidStackPointer && t.flags == fr [] && t.pc == 0x0011#16) = true := by decide

theorem test_MOV10_cmp_equal_clears_greater :
    checkStep (boot 0x0010#16 [0x58A0#16] [.writeRegister 1 0x0007#16, .writeRegister 2 0x0007#16, .writeFlag .greater true, .writeFlag .carry true])
      (fun t => t.flags == fr [.equal, .carry] && t.pc == 0x0011#16) = true := by decide

theorem test_MOV11_cmp_unsigned :
    checkStep (boot 0x0010#16 [0x58A0#16] [.writeRegister 1 0xFFFF#16, .writeRegister 2 0x0001#16])
      (fun t => t.flags == fr [.greater] && t.pc == 0x0011#16) = true := by decide

/-! ## One step, control flow -/

theorem test_JMP14_jmp_last_target :
    checkStep (boot 0x0010#16 [0x0800#16, 0x7FFF#16] [])
      (fun t => t.flags == fr [] && t.pc == 0x7FFF#16) = true := by decide

theorem test_JMP15_jmp_target_too_large :
    checkStep (boot 0x0010#16 [0x0800#16, 0x8000#16] [])
      (fun t => faultKind t.outcome == some .invalidTarget && t.flags == fr [] && t.pc == 0x0012#16) = true := by decide

theorem test_JMP3_jz_taken :
    checkStep (boot 0x0010#16 [0x08C0#16, 0x0040#16] [.writeFlag .zero true])
      (fun t => t.flags == fr [.zero] && t.pc == 0x0040#16) = true := by decide

theorem test_JMP16_jz_not_taken_unchecked :
    checkStep (boot 0x0010#16 [0x08C0#16, 0xFFFF#16] [])
      (fun t => t.flags == fr [] && t.pc == 0x0012#16) = true := by decide

theorem test_JMP4_jc :
    checkStep (boot 0x0010#16 [0x0940#16, 0x0040#16] [.writeFlag .carry true])
      (fun t => t.flags == fr [.carry] && t.pc == 0x0040#16) = true := by decide

theorem test_JMP5_jnc :
    checkStep (boot 0x0010#16 [0x0980#16, 0x0040#16] [.writeFlag .carry true])
      (fun t => t.flags == fr [.carry] && t.pc == 0x0012#16) = true := by decide

theorem test_JMP6_jov :
    checkStep (boot 0x0010#16 [0x0AC0#16, 0x0040#16] [.writeFlag .carry true])
      (fun t => t.flags == fr [.carry] && t.pc == 0x0040#16) = true := by decide

theorem test_JMP7_jeg :
    checkStep (boot 0x0010#16 [0x0A40#16, 0x0040#16] [.writeFlag .greater true])
      (fun t => t.flags == fr [.greater] && t.pc == 0x0040#16) = true := by decide

theorem test_JMP8_jel :
    checkStep (boot 0x0010#16 [0x0A80#16, 0x0040#16] [.writeFlag .equal true])
      (fun t => t.flags == fr [.equal] && t.pc == 0x0040#16) = true := by decide

theorem test_JMP9_jle :
    checkStep (boot 0x0010#16 [0x0A00#16, 0x0040#16] [.writeFlag .greater true])
      (fun t => t.flags == fr [.greater] && t.pc == 0x0012#16) = true := by decide

theorem test_JMP10_jdz :
    checkStep (boot 0x0010#16 [0x0B40#16, 0x0040#16] [.writeFlag .divZero true])
      (fun t => t.flags == fr [.divZero] && t.pc == 0x0040#16) = true := by decide

theorem test_JMP11_jn :
    checkStep (boot 0x0010#16 [0x0B80#16, 0x0040#16] [.writeFlag .negative true])
      (fun t => t.flags == fr [.negative] && t.pc == 0x0040#16) = true := by decide

theorem test_JMP17_jcond15 :
    checkStep (boot 0x0010#16 [0x0BC0#16, 0x0040#16] [])
      (fun t => faultKind t.outcome == some .invalidCondition && t.flags == fr [] && t.pc == 0x0012#16) = true := by decide

theorem test_JMP19_jcond15_operand_first :
    checkStep (boot 0x7FFE#16 [0x0BC0#16] [])
      (fun t => faultKind t.outcome == some .operandOutOfRange && t.flags == fr [] && t.pc == 0x8000#16) = true := by decide

theorem test_CAL5_call_at_sentinel :
    checkStep (boot 0x0010#16 [0x0C00#16, 0x0040#16] [.writeSp 0x7FFF#16])
      (fun t => t.readWord 0x7FFF#16 == 0x0012#16 && t.sp == 0x7FFE#16 && t.flags == fr []) = true := by decide

theorem test_CAL9_call_sp_checked_first :
    checkStep (boot 0x0010#16 [0x0C00#16, 0x8000#16] [.writeSp 0x0000#16])
      (fun t => faultKind t.outcome == some .invalidStackPointer && t.flags == fr [] && t.pc == 0x0012#16) = true := by decide

theorem test_CAL8_ceq :
    checkStep (boot 0x0010#16 [0x0C40#16, 0x0040#16] [.writeFlag .equal true])
      (fun t => t.readWord 0x7FFE#16 == 0x0012#16 && t.sp == 0x7FFD#16 && t.flags == fr [.equal]) = true := by decide

theorem test_CAL10_cz_not_taken :
    checkStep (boot 0x0010#16 [0x0CC0#16, 0x8000#16] [])
      (fun t => t.flags == fr [] && t.pc == 0x0012#16) = true := by decide

theorem test_CAL7_ccond15 :
    checkStep (boot 0x0010#16 [0x0FC0#16, 0x0040#16] [])
      (fun t => faultKind t.outcome == some .invalidCondition && t.flags == fr [] && t.pc == 0x0012#16) = true := by decide

theorem test_CAL15_rts :
    checkStep (boot 0x0010#16 [0x1000#16] [.writeSp 0x1000#16, .writeMemory 0x1001#16 0x0200#16])
      (fun t => t.sp == 0x1001#16 && t.flags == fr [] && t.pc == 0x0200#16) = true := by decide

theorem test_CAL12_rts_on_empty_stack :
    checkStep (boot 0x0010#16 [0x1000#16] [])
      (fun t => faultKind t.outcome == some .invalidStackPointer && t.flags == fr [] && t.pc == 0x0011#16) = true := by decide

/-! ## One step, memory and stack -/

theorem test_STK4_push_at_sentinel :
    checkStep (boot 0x0010#16 [0x1480#16] [.writeRegister 1 0xBEEF#16, .writeSp 0x7FFF#16])
      (fun t => t.readWord 0x7FFF#16 == 0xBEEF#16 && t.sp == 0x7FFE#16 && t.flags == fr []) = true := by decide

theorem test_STK2_push_at_zero :
    checkStep (boot 0x0010#16 [0x1480#16] [.writeRegister 1 0xBEEF#16, .writeSp 0x0000#16])
      (fun t => faultKind t.outcome == some .invalidStackPointer && t.flags == fr [] && t.pc == 0x0011#16) = true := by decide

theorem test_STK6_push_fr :
    checkStep (boot 0x0010#16 [0x1440#16] [.writeFlag .equal true, .writeFlag .zero true, .writeFlag .carry true, .writeFlag .greater true, .writeFlag .lesser true, .writeFlag .negative true, .writeFlag .divZero true])
      (fun t => t.readWord 0x7FFE#16 == 0x007F#16 && t.sp == 0x7FFD#16 && t.flags == fr [.equal, .zero, .carry, .greater, .lesser, .negative, .divZero]) = true := by decide

theorem test_STK8_pop_sentinel :
    checkStep (boot 0x0010#16 [0x1880#16] [.writeMemory 0x7FFF#16 0x5555#16])
      (fun t => t.reg 1 == 0x5555#16 && t.sp == 0x7FFF#16 && t.flags == fr []) = true := by decide

theorem test_STK9_pop_past_top :
    checkStep (boot 0x0010#16 [0x1880#16] [.writeSp 0x7FFF#16])
      (fun t => faultKind t.outcome == some .invalidStackPointer && t.flags == fr [] && t.pc == 0x0011#16) = true := by decide

theorem test_STK10_pop_fr :
    checkStep (boot 0x0010#16 [0x1840#16] [.writeSp 0x7FFD#16, .writeMemory 0x7FFE#16 0x0044#16, .writeFlag .zero true])
      (fun t => t.sp == 0x7FFE#16 && t.flags == fr [.carry, .divZero] && t.pc == 0x0011#16) = true := by decide

theorem test_STK11_pop_fr_ignores_high_bits :
    checkStep (boot 0x0010#16 [0x1840#16] [.writeSp 0x7FFD#16, .writeMemory 0x7FFE#16 0xFF80#16])
      (fun t => t.sp == 0x7FFE#16 && t.flags == fr [] && t.pc == 0x0011#16) = true := by decide

theorem test_MEM2_load_last :
    checkStep (boot 0x0010#16 [0xC080#16, 0x7FFE#16] [.writeMemory 0x7FFE#16 0x0007#16])
      (fun t => t.reg 1 == 0x0007#16 && t.flags == fr [] && t.pc == 0x0012#16) = true := by decide

theorem test_MEM3_load_sentinel :
    checkStep (boot 0x0010#16 [0xC080#16, 0x7FFF#16] [])
      (fun t => faultKind t.outcome == some .invalidAddress && t.flags == fr [] && t.pc == 0x0012#16) = true := by decide

theorem test_MEM9_store_own_operand :
    checkStep (boot 0x0010#16 [0xC480#16, 0x0011#16] [.writeRegister 1 0x0003#16])
      (fun t => t.readWord 0x0011#16 == 0x0003#16 && t.flags == fr [] && t.pc == 0x0012#16) = true := by decide

theorem test_MEM8_store_sentinel :
    checkStep (boot 0x0010#16 [0xC480#16, 0x7FFF#16] [.writeRegister 1 0x0003#16])
      (fun t => faultKind t.outcome == some .invalidAddress && t.flags == fr [] && t.pc == 0x0012#16) = true := by decide

theorem test_MEM10_loadn :
    checkStep (boot 0x0010#16 [0xE080#16, 0xFFFF#16] [])
      (fun t => t.reg 1 == 0xFFFF#16 && t.flags == fr [] && t.pc == 0x0012#16) = true := by decide

theorem test_MEM12_loadn_at_last_word :
    checkStep (boot 0x7FFE#16 [0xE080#16] [])
      (fun t => faultKind t.outcome == some .operandOutOfRange && t.flags == fr [] && t.pc == 0x8000#16) = true := by decide

theorem test_MEM15_loadi_same_register :
    checkStep (boot 0x0010#16 [0xF090#16] [.writeRegister 1 0x0200#16, .writeMemory 0x0200#16 0x1234#16])
      (fun t => t.reg 1 == 0x1234#16 && t.flags == fr [] && t.pc == 0x0011#16) = true := by decide

theorem test_MEM14_loadi_sentinel :
    checkStep (boot 0x0010#16 [0xF0A0#16] [.writeRegister 2 0x7FFF#16])
      (fun t => faultKind t.outcome == some .invalidAddress && t.flags == fr [] && t.pc == 0x0011#16) = true := by decide

theorem test_MEM16_storei :
    checkStep (boot 0x0010#16 [0xF4A0#16] [.writeRegister 1 0x0200#16, .writeRegister 2 0x0007#16])
      (fun t => t.readWord 0x0200#16 == 0x0007#16 && t.flags == fr [] && t.pc == 0x0011#16) = true := by decide

theorem test_MEM17_storei_too_high :
    checkStep (boot 0x0010#16 [0xF4A0#16] [.writeRegister 1 0xFFFF#16, .writeRegister 2 0x0007#16])
      (fun t => faultKind t.outcome == some .invalidAddress && t.flags == fr [] && t.pc == 0x0011#16) = true := by decide

/-! ## One step, hooks, system and engine -/

theorem test_IO1_inchar :
    checkStep { boot 0x0010#16 [0xD480#16] [.writeRegister 1 0x1234#16] with hooks := { Hooks.fresh with inputAnswers := [.key 0x41#8] } }
      (fun t => t.reg 1 == 0x0041#16 && t.flags == fr [] && t.pc == 0x0011#16) = true := by decide

theorem test_IO3_inchar_fault :
    checkStep { boot 0x0010#16 [0xD480#16] [.writeRegister 1 0x1234#16] with hooks := { Hooks.fresh with inputAnswers := [.fault] } }
      (fun t => faultKind t.outcome == some .ioFaultInput && t.flags == fr [] && t.pc == 0x0011#16) = true := by decide

theorem test_IO4_outchar :
    checkStep { boot 0x0010#16 [0xC8A0#16] [.writeRegister 1 0x0041#16, .writeRegister 2 0x0000#16] with hooks := { Hooks.fresh with outputAnswers := [.ok] } }
      (fun t => t.hooks.outputs == [{ char := 0x0041#16, pos := 0x0000#16 }] && t.flags == fr [] && t.pc == 0x0011#16) = true := by decide

theorem test_IO5_outchar_fault :
    checkStep { boot 0x0010#16 [0xC8A0#16] [.writeRegister 1 0x0241#16, .writeRegister 2 0x0028#16] with hooks := { Hooks.fresh with outputAnswers := [.fault] } }
      (fun t => t.hooks.outputs == [{ char := 0x0241#16, pos := 0x0028#16 }] && faultKind t.outcome == some .ioFaultOutput && t.flags == fr []) = true := by decide

theorem test_IO7_halt_ignored_bits :
    checkStep (boot 0x0010#16 [0x3FFF#16] [])
      (fun t => t.outcome == .stop .halt && t.flags == fr [] && t.pc == 0x0010#16) = true := by decide

theorem test_ENG7_halt_at_last_word :
    checkStep (boot 0x7FFE#16 [0x3C00#16] [])
      (fun t => t.outcome == .stop .halt && t.flags == fr [] && t.pc == 0x7FFE#16) = true := by decide

theorem test_IO9_breakp :
    checkStep (boot 0x0010#16 [0x3800#16] [])
      (fun t => t.outcome == .stop .breakpoint && t.flags == fr [] && t.pc == 0x0011#16) = true := by decide

theorem test_IO10_breakp_stays :
    checkStep { boot 0x0010#16 [0x3800#16] [] with params := { Params.default with breakpAdvances := false } }
      (fun t => t.outcome == .stop .breakpoint && t.flags == fr [] && t.pc == 0x0010#16) = true := by decide

theorem test_IO11_nop :
    checkStep { boot 0x0010#16 [0x0000#16] [] with params := { Params.default with icmcExtras := true } }
      (fun t => t.flags == fr [] && t.pc == 0x0011#16) = true := by decide

theorem test_IO12_nop_without_extras :
    checkStep (boot 0x0010#16 [0x0000#16] [])
      (fun t => faultKind t.outcome == some .unknownInstruction && t.flags == fr [] && t.pc == 0x0011#16) = true := by decide

theorem test_IO13_setc :
    checkStep { boot 0x0010#16 [0x2200#16] [] with params := { Params.default with icmcExtras := true } }
      (fun t => t.flags == fr [.carry] && t.pc == 0x0011#16) = true := by decide

theorem test_IO15_setc_without_extras :
    checkStep (boot 0x0010#16 [0x2200#16] [])
      (fun t => faultKind t.outcome == some .unknownInstruction && t.flags == fr [] && t.pc == 0x0011#16) = true := by decide

theorem test_IO14_clearc :
    checkStep { boot 0x0010#16 [0x2000#16] [.writeFlag .carry true] with params := { Params.default with icmcExtras := true } }
      (fun t => t.flags == fr [] && t.pc == 0x0011#16) = true := by decide

theorem test_ENG1_pc_at_sentinel :
    checkStep (boot 0x7FFF#16 [0x9080#16] [])
      (fun t => faultKind t.outcome == some .pcOutOfRange && t.flags == fr [] && t.pc == 0x7FFF#16) = true := by decide

theorem test_ENG4_opcode_63 :
    checkStep (boot 0x0010#16 [0xFFFF#16] [])
      (fun t => faultKind t.outcome == some .unknownInstruction && t.flags == fr [] && t.pc == 0x0011#16) = true := by decide

theorem test_ENG6_unknown_at_last_word :
    checkStep (boot 0x7FFE#16 [0x0400#16] [])
      (fun t => faultKind t.outcome == some .unknownInstruction && t.flags == fr [] && t.pc == 0x7FFF#16) = true := by decide

theorem test_ENG8_pc_past_memory :
    checkStep (boot 0x8000#16 [] [])
      (fun t => faultKind t.outcome == some .pcOutOfRange && t.flags == fr [] && t.pc == 0x8000#16) = true := by decide

/-! ## One step, the other conditions: one cell each of the truth table -/

theorem test_cell_jeq :
    checkStep (boot 0x0010#16 [0x0840#16, 0x0040#16] [.writeFlag .greater true])
      (fun t => t.pc == 0x0012#16) = true := by decide

theorem test_cell_jne :
    checkStep (boot 0x0010#16 [0x0880#16, 0x0040#16] [.writeFlag .equal true])
      (fun t => t.pc == 0x0012#16) = true := by decide

theorem test_cell_jnz :
    checkStep (boot 0x0010#16 [0x0900#16, 0x0040#16] [.writeFlag .zero true])
      (fun t => t.pc == 0x0012#16) = true := by decide

theorem test_cell_jgr :
    checkStep (boot 0x0010#16 [0x09C0#16, 0x0040#16] [.writeFlag .lesser true])
      (fun t => t.pc == 0x0012#16) = true := by decide

theorem test_cell_jno :
    checkStep (boot 0x0010#16 [0x0B00#16, 0x0040#16] [.writeFlag .zero true])
      (fun t => t.pc == 0x0040#16) = true := by decide

theorem test_cell_cne :
    checkStep (boot 0x0010#16 [0x0C80#16, 0x0040#16] [.writeFlag .zero true])
      (fun t => t.pc == 0x0040#16) = true := by decide

theorem test_cell_cnz :
    checkStep (boot 0x0010#16 [0x0D00#16, 0x0040#16] [.writeFlag .zero true])
      (fun t => t.pc == 0x0012#16) = true := by decide

theorem test_cell_cc :
    checkStep (boot 0x0010#16 [0x0D40#16, 0x0040#16] [.writeFlag .carry true])
      (fun t => t.pc == 0x0040#16) = true := by decide

theorem test_cell_cnc :
    checkStep (boot 0x0010#16 [0x0D80#16, 0x0040#16] [.writeFlag .carry true])
      (fun t => t.pc == 0x0012#16) = true := by decide

theorem test_cell_cgr :
    checkStep (boot 0x0010#16 [0x0DC0#16, 0x0040#16] [.writeFlag .greater true])
      (fun t => t.pc == 0x0040#16) = true := by decide

theorem test_cell_cle :
    checkStep (boot 0x0010#16 [0x0E00#16, 0x0040#16] [.writeFlag .lesser true])
      (fun t => t.pc == 0x0040#16) = true := by decide

theorem test_cell_ceg :
    checkStep (boot 0x0010#16 [0x0E40#16, 0x0040#16] [.writeFlag .lesser true])
      (fun t => t.pc == 0x0012#16) = true := by decide

theorem test_cell_cel :
    checkStep (boot 0x0010#16 [0x0E80#16, 0x0040#16] [.writeFlag .greater true])
      (fun t => t.pc == 0x0012#16) = true := by decide

theorem test_cell_cov :
    checkStep (boot 0x0010#16 [0x0EC0#16, 0x0040#16] [.writeFlag .carry true])
      (fun t => t.pc == 0x0040#16) = true := by decide

theorem test_cell_cno :
    checkStep (boot 0x0010#16 [0x0F00#16, 0x0040#16] [.writeFlag .carry true])
      (fun t => t.pc == 0x0012#16) = true := by decide

theorem test_cell_cdz :
    checkStep (boot 0x0010#16 [0x0F40#16, 0x0040#16] [.writeFlag .divZero true])
      (fun t => t.pc == 0x0040#16) = true := by decide

theorem test_cell_cn :
    checkStep (boot 0x0010#16 [0x0F80#16, 0x0040#16] [.writeFlag .negative true])
      (fun t => t.pc == 0x0040#16) = true := by decide

/-! ## The truth table, row by row: no flag, then equal, zero, carry, greater, lesser, negative, div_zero -/

/-- The eight settings of the table of 95_test_vectors.md. -/
def oneFlag : List Flags :=
  [fr [], fr [.equal], fr [.zero], fr [.carry], fr [.greater], fr [.lesser], fr [.negative], fr [.divZero]]

theorem test_truth_table :
    ([.always, .equal, .notEqual, .zero, .notZero, .carry, .notCarry, .greater,
      .lesser, .equalOrGreater, .equalOrLesser, .overflow, .notOverflow, .divZero, .negative] : List Cond).map
        (fun k => oneFlag.map (fun f => (k.holds f).toNat)) =
      [[1, 1, 1, 1, 1, 1, 1, 1],
       [0, 1, 0, 0, 0, 0, 0, 0],
       [1, 0, 1, 1, 1, 1, 1, 1],
       [0, 0, 1, 0, 0, 0, 0, 0],
       [1, 1, 0, 1, 1, 1, 1, 1],
       [0, 0, 0, 1, 0, 0, 0, 0],
       [1, 1, 1, 0, 1, 1, 1, 1],
       [0, 0, 0, 0, 1, 0, 0, 0],
       [0, 0, 0, 0, 0, 1, 0, 0],
       [0, 1, 0, 0, 1, 0, 0, 0],
       [0, 1, 0, 0, 0, 1, 0, 0],
       [0, 0, 0, 1, 0, 0, 0, 0],
       [1, 1, 1, 0, 1, 1, 1, 1],
       [0, 0, 0, 0, 0, 0, 0, 1],
       [0, 0, 0, 0, 0, 0, 1, 0]] := by decide

/-! ## Decoding: one word for every row of the opcode table, written out from its format (rx = r5, ry = r2, rz = r6,
amount 9, second word 0x1234) -/

theorem test_decode_rows_1_to_9 :
    decodesTo
      [(0b1000001010101100#16, .add 5 2 6),
       (0b1000001010101101#16, .addc 5 2 6),
       (0b1000011010101100#16, .sub 5 2 6),
       (0b1000011010101101#16, .subc 5 2 6),
       (0b1000101010101101#16, .mult 5 2 6 true),
       (0b1000111010101101#16, .div 5 2 6 true),
       (0b1001011010101101#16, .mod 5 2 6 true),
       (0b1001001010000000#16, .inc 5),
       (0b1001001011000000#16, .dec 5)] = true := by decide

theorem test_decode_rows_10_to_18 :
    decodesTo
      [(0b0100101010101101#16, .and 5 2 6 true),
       (0b0100111010101101#16, .or 5 2 6 true),
       (0b0101001010101101#16, .xor 5 2 6 true),
       (0b0101011010100000#16, .not 5 2),
       (0b0100001010001001#16, .shiftl0 5 9),
       (0b0100001010011001#16, .shiftl1 5 9),
       (0b0100001010101001#16, .shiftr0 5 9),
       (0b0100001010111001#16, .shiftr1 5 9),
       (0b0100001011001001#16, .rotl 5 9)] = true := by decide

theorem test_decode_rows_19_to_27 :
    decodesTo
      [(0b0100001011101001#16, .rotr 5 9),
       (0b1100111010100000#16, .movRxRy 5 2),
       (0b1100111010000001#16, .movRxSp 5),
       (0b1100111010000011#16, .movSpRx 5),
       (0b0101101010100000#16, .cmp 5 2),
       (0b0000100000000000#16, .jmp 0x1234#16),
       (0b0000100001000000#16, .jeq 0x1234#16),
       (0b0000100010000000#16, .jne 0x1234#16),
       (0b0000100011000000#16, .jz 0x1234#16)] = true := by decide

theorem test_decode_rows_28_to_36 :
    decodesTo
      [(0b0000100100000000#16, .jnz 0x1234#16),
       (0b0000100101000000#16, .jc 0x1234#16),
       (0b0000100110000000#16, .jnc 0x1234#16),
       (0b0000100111000000#16, .jgr 0x1234#16),
       (0b0000101000000000#16, .jle 0x1234#16),
       (0b0000101001000000#16, .jeg 0x1234#16),
       (0b0000101010000000#16, .jel 0x1234#16),
       (0b0000101011000000#16, .jov 0x1234#16),
       (0b0000101100000000#16, .jno 0x1234#16)] = true := by decide

theorem test_decode_rows_37_to_45 :
    decodesTo
      [(0b0000101101000000#16, .jdz 0x1234#16),
       (0b0000101110000000#16, .jn 0x1234#16),
       (0b0000101111000000#16, .jcond15 0x1234#16),
       (0b0000110000000000#16, .call 0x1234#16),
       (0b0000110001000000#16, .ceq 0x1234#16),
       (0b0000110010000000#16, .cne 0x1234#16),
       (0b0000110011000000#16, .cz 0x1234#16),
       (0b0000110100000000#16, .cnz 0x1234#16),
       (0b0000110101000000#16, .cc 0x1234#16)] = true := by decide

theorem test_decode_rows_46_to_54 :
    decodesTo
      [(0b0000110110000000#16, .cnc 0x1234#16),
       (0b0000110111000000#16, .cgr 0x1234#16),
       (0b0000111000000000#16, .cle 0x1234#16),
       (0b0000111001000000#16, .ceg 0x1234#16),
       (0b0000111010000000#16, .cel 0x1234#16),
       (0b0000111011000000#16, .cov 0x1234#16),
       (0b0000111100000000#16, .cno 0x1234#16),
       (0b0000111101000000#16, .cdz 0x1234#16),
       (0b0000111110000000#16, .cn 0x1234#16)] = true := by decide

theorem test_decode_rows_55_to_63 :
    decodesTo
      [(0b0000111111000000#16, .ccond15 0x1234#16),
       (0b0001000000000000#16, .rts),
       (0b0001011010000000#16, .pushRx 5),
       (0b0001010001000000#16, .pushFr),
       (0b0001101010000000#16, .popRx 5),
       (0b0001100001000000#16, .popFr),
       (0b1100001010000000#16, .load 5 0x1234#16),
       (0b1100011010000000#16, .store 5 0x1234#16),
       (0b1110001010000000#16, .loadn 5 0x1234#16)] = true := by decide

theorem test_decode_rows_64_to_72 :
    decodesTo
      [(0b1111001010100000#16, .loadi 5 2),
       (0b1111011010100000#16, .storei 5 2),
       (0b1101011010000000#16, .inchar 5),
       (0b1100101010100000#16, .outchar 5 2),
       (0b0011110000000000#16, .halt),
       (0b0011100000000000#16, .breakp),
       (0b0000000000000000#16, .nop),
       (0b0010001000000000#16, .setc),
       (0b0010000000000000#16, .clearc)] = true := by decide
/-! ## Ill-formed terms are refused -/

theorem test_extras_need_icmc_extras :
    [Instr.nop, .setc, .clearc].map (Instr.wf false) = [false, false, false] := by decide

theorem test_extras_with_icmc_extras : [Instr.nop, .setc, .clearc].all (Instr.wf true) = true := by decide

theorem test_layout_with_a_shared_bit_refused : ¬ Params.wf
    { Params.default with flagLayout := { FlagLayout.default with negative := 0 } } := by decide

theorem test_memory_out_of_order_refused : ¬ Memory.wf [(3, 1#8), (2, 1#8)] := by decide

theorem test_memory_repeated_address_refused : ¬ Memory.wf [(3, 1#8), (3, 2#8)] := by decide

theorem test_memory_listed_zero_refused : ¬ Memory.wf [(3, 0#8)] := by decide

theorem test_memory_past_the_last_word_refused : ¬ Memory.wf [(65536, 1#8)] := by decide

theorem test_decode_needs_the_second_word : decode false [0xE0#8, 0x00#8, 0x01#8] = .error .truncated := by
  decide

/-! ## The fetch, the memory and the host surface -/

theorem test_withFetchWord_runs_inc :
    checkStep (State.reset.withFetchWord 16 0x9080) (fun t => t.reg 1 == 1#16) = true := by decide

theorem test_withFetchWord_runs_nop :
    checkStep (State.reset.withFetchWord 16 0) (fun t => t.outcome == .cont && t.pc == 1#16) = true := by decide

theorem test_decodeTableWord_second_word : decodeTableWord 32 0x12340800 = some (.jmp 0x1234#16) := by decide

/-- An image byte pair is one word, high byte first (20_memory.md R34). -/
theorem test_words_are_big_endian : Memory.readWord [(4, 0x12#8), (5, 0x34#8)] 2#16 = 0x1234#16 := by decide

theorem test_writing_zero_unlists : (Memory.writeWord [(4, 0x12#8), (5, 0x34#8)] 2#16 0#16) = [] := by decide

/-- Reset copies the baseline back and keeps `running` (70_reset_and_hazards.md R280). -/
theorem test_reset_restores_memory :
    (State.hostReset { boot 5#16 [0x3C00#16] [] with running := true }).live = [] := by decide

theorem test_load_image_refuses_a_short_buffer :
    State.reset.loadImage [0x3C#8, 0x00#8] = .error .wrongImageLength := by decide

theorem test_edit_refuses_no_such_word : State.reset.edit (.writeMemory 0x8000#16 1#16) = .error .noSuchWord := by
  decide

theorem test_host_reads_the_sentinel : State.reset.hostReadWord 0x7FFF#16 = .ok 0#16 := by decide

/-! ## The disassembler -/

/-- A word after a 2-word opcode is an operand (45_disassembler.md R240). -/
theorem test_disassemble_operand :
    (boot 0#16 [0xE000#16, 0xFFFF#16] []).hostDisassemble 1#16 false = .ok (.operand, "#65535 (-1)") := by decide

theorem test_disassemble_instruction :
    (boot 0#16 [0x80A6#16] []).hostDisassemble 0#16 false = .ok (.instr, "add r1, r2, r3") := by decide

theorem test_disassemble_unknown :
    (boot 0#16 [0x0400#16] []).hostDisassemble 0#16 false = .ok (.unknown, "#1024") := by decide

theorem test_disassemble_raw : State.reset.hostDisassemble 0x7FFF#16 true = .ok (.raw, "#0") := by decide

theorem test_disassemble_refused : State.reset.hostDisassemble 0x8000#16 true = .error .noSuchWord := by decide

/-! ## Witnesses: the hypotheses of every statement that has some are met, clause by clause -/

/-- `inc r1` at the last address a step may fetch at. -/
def lastInc : State := boot 0x7FFE#16 [0x9080#16] []

theorem witness_StepRunsTheDecodedInstruction :
    lastInc.pc.toNat < 0x7FFF ∧ (Instr.inc 1).wf lastInc.params.icmcExtras = true ∧
    decode lastInc.params.icmcExtras lastInc.fetchBytes = .ok (.inc 1, [0#8, 0#8]) := by decide

theorem witness_StepRunsTheDecodedInstruction_outcomes :
    checkExec .halt State.reset (fun u => u.outcome == .stop .halt) = true ∧
    checkExec .rts State.reset (fun u => faultKind u.outcome == some .invalidStackPointer) = true ∧
    checkExec (.inc 1) State.reset (fun u => u.outcome == .cont && u.status != .running) = true ∧
    checkExec (.inc 1) { State.reset with status := .running }
      (fun u => u.outcome == .cont && u.status == .running) = true := by decide

theorem witness_StepPastTheLastAddressFaults :
    0x7FFF ≤ (State.reset.setPc 0x7FFF#16).pc.toNat ∧ 0x7FFF ≤ (State.reset.setPc 0xFFFF#16).pc.toNat := by decide

theorem witness_StepOnUnknownOpcodeFaults :
    (boot 0x7FFE#16 [0x0400#16] []).pc.toNat < 0x7FFF ∧
    opcodeSize (boot 0x7FFE#16 [0x0400#16] []).params.icmcExtras
      (opcodeField ((boot 0x7FFE#16 [0x0400#16] []).readWord 0x7FFE#16)).toNat = none := by decide

/-- r1 = 0, r2 = 0x7FFF, r3 = 0x8000, r4 = 0x7FFE. -/
def bounds : State := ((State.reset.setReg 2 0x7FFF#16).setReg 3 0x8000#16).setReg 4 0x7FFE#16

/-- The reset machine with SP = `v`. -/
def withSp (v : Word) : State := State.reset.setSp v

/-- The reset machine with PC = `v`. -/
def withPc (v : Word) : State := State.reset.setPc v

theorem witness_DivByNonZeroAndByZero : bounds.reg 1 = 0#16 ∧ bounds.reg 2 ≠ 0#16 := by decide

theorem witness_ModByNonZeroAndByZero : bounds.reg 1 = 0#16 ∧ bounds.reg 3 ≠ 0#16 := by decide

/-- For ShiftsFillWithZerosOrOnes and RotatesKeepEveryBit: both values of the parameter. -/
theorem witness_ShiftsWriteFlagsOrNot :
    State.reset.params.shiftWritesFlags = false ∧
    ({ State.reset with params := { Params.default with shiftWritesFlags := true } } :
      State).params.shiftWritesFlags = true := by decide

theorem witness_MovIntoSpChecksItsValue : (bounds.reg 2).toNat ≤ 0x7FFF ∧ 0x7FFF < (bounds.reg 3).toNat := by
  decide

/-- PC = `pc`, SP = `sp`, and the zero flag `z`. -/
def branching (pc sp : Word) (z : Bool) : State := boot pc [] [.writeSp sp, .writeFlag .zero z]

/-- Operand out of range at PC = 0x7FFE and in range at 0x7FFD; a test that holds (jz, zero set) and one that
does not; the largest target allowed and the smallest refused. -/
theorem witness_JumpsFollowTheTruthTable :
    ((.jz 0#16, 0x08C0#16, true) ∈ jumpTable (branching 0x7FFE#16 1#16 true).flags 0#16 ∧
      0x7FFF ≤ (branching 0x7FFE#16 1#16 true).pc.toNat + 1) ∧
    ((.jz 0x8000#16, 0x08C0#16, true) ∈ jumpTable (branching 0x7FFD#16 1#16 true).flags 0x8000#16 ∧
      (branching 0x7FFD#16 1#16 true).pc.toNat + 1 < 0x7FFF ∧ 0x7FFF < (0x8000#16).toNat) ∧
    ((.jz 0x7FFF#16, 0x08C0#16, true) ∈ jumpTable (branching 0x7FFD#16 1#16 true).flags 0x7FFF#16 ∧
      (0x7FFF#16).toNat ≤ 0x7FFF) ∧
    (.jz 0xFFFF#16, 0x08C0#16, false) ∈ jumpTable (branching 0x7FFD#16 1#16 false).flags 0xFFFF#16 := by decide

/-- As for the jumps, with SP at 0 and 0x8000 (no room), 1 and 0x7FFF (room). -/
theorem witness_CallsPushTheReturnAddress :
    ((.cz 0#16, 0x0CC0#16, true) ∈ callTable (branching 0x7FFE#16 1#16 true).flags 0#16 ∧
      0x7FFF ≤ (branching 0x7FFE#16 1#16 true).pc.toNat + 1) ∧
    ((.cz 0#16, 0x0CC0#16, true) ∈ callTable (branching 0x7FFD#16 0#16 true).flags 0#16 ∧
      (branching 0x7FFD#16 0#16 true).pc.toNat + 1 < 0x7FFF ∧ (branching 0x7FFD#16 0#16 true).sp.toNat = 0 ∧
      0x8000 ≤ (branching 0x7FFD#16 0x8000#16 true).sp.toNat) ∧
    ((.cz 0x8000#16, 0x0CC0#16, true) ∈ callTable (branching 0x7FFD#16 1#16 true).flags 0x8000#16 ∧
      0 < (branching 0x7FFD#16 1#16 true).sp.toNat ∧ (branching 0x7FFD#16 1#16 true).sp.toNat < 0x8000 ∧
      0x7FFF < (0x8000#16).toNat) ∧
    ((.cz 0x7FFF#16, 0x0CC0#16, true) ∈ callTable (branching 0x7FFD#16 0x7FFF#16 true).flags 0x7FFF#16 ∧
      0 < (branching 0x7FFD#16 0x7FFF#16 true).sp.toNat ∧
      (branching 0x7FFD#16 0x7FFF#16 true).sp.toNat < 0x8000 ∧ (0x7FFF#16).toNat ≤ 0x7FFF) ∧
    (.cz 0xFFFF#16, 0x0CC0#16, false) ∈ callTable (branching 0x7FFD#16 1#16 false).flags 0xFFFF#16 := by decide

theorem witness_ReservedConditionRaises :
    (withPc 0x7FFD#16).pc.toNat + 1 < 0x7FFF ∧ 0x7FFF ≤ (withPc 0x7FFE#16).pc.toNat + 1 := by decide

/-- SP = 0x7FFD with `v` on the stack. -/
def stacked (v : Word) : State := boot 0#16 [] [.writeSp 0x7FFD#16, .writeMemory 0x7FFE#16 v]

theorem witness_RtsReturnsOrFaults :
    ((stacked 0x7FFF#16).sp.toNat < 0x7FFE ∧
      ((stacked 0x7FFF#16).readWord ((stacked 0x7FFF#16).sp + 1#16)).toNat ≤ 0x7FFF) ∧
    0x7FFE ≤ State.reset.sp.toNat ∧
    ((stacked 0x8000#16).sp.toNat < 0x7FFE ∧
      0x7FFF < ((stacked 0x8000#16).readWord ((stacked 0x8000#16).sp + 1#16)).toNat) := by decide

/-- `call 0x0040` at 0x0010 and `rts` at 0x0040. -/
def callAndReturn : State := boot 0x0010#16 [0x0C00#16, 0x0040#16] [.writeMemory 0x0040#16 0x1000#16]

theorem witness_CallThenRtsComesBack :
    callAndReturn.pc.toNat + 1 < 0x7FFF ∧ callAndReturn.fetch = some (.call 0x0040#16) ∧
    0 < callAndReturn.sp.toNat ∧ callAndReturn.sp.toNat < 0x7FFF ∧ (0x0040#16).toNat < 0x7FFF ∧
    opcodeField (callAndReturn.readWord 0x0040#16) = 4#6 ∧ callAndReturn.sp ≠ 0x0040#16 := by decide

theorem witness_PushWritesBelowAndDecrements :
    (0 < (withSp 1#16).sp.toNat ∧ (withSp 1#16).sp.toNat < 0x8000) ∧
    (0 < (withSp 0x7FFF#16).sp.toNat ∧ (withSp 0x7FFF#16).sp.toNat < 0x8000) ∧
    (withSp 0#16).sp.toNat = 0 ∧ 0x8000 ≤ (withSp 0x8000#16).sp.toNat := by decide

theorem witness_PopReadsAboveAndIncrements :
    State.reset.sp.toNat < 0x7FFF ∧ 0x7FFF ≤ (withSp 0x7FFF#16).sp.toNat := by decide

theorem witness_PushThenPopRestores :
    0 < (withSp 0x7FFF#16).sp.toNat ∧ (withSp 0x7FFF#16).sp.toNat < 0x8000 := by decide

/-- The default layout and its reverse at the top bits; an image bit outside the layout; SP at both ends. -/
theorem witness_FlagImageRoundTrip :
    FlagLayout.default.wf ∧
    ({ equal := 15, zero := 14, carry := 13, greater := 12, lesser := 11, negative := 10, divZero := 9 } :
      FlagLayout).wf ∧
    (∀ p ∈ FlagLayout.default.positions, p.val ≠ 7) ∧
    (∀ n, (FlagLayout.default.position n).val ≠ 15) ∧
    (withSp 1#16).params.wf ∧ 0 < (withSp 1#16).sp.toNat ∧ (withSp 0x7FFF#16).sp.toNat < 0x8000 :=
  ⟨by decide, by decide, by decide, fun n => by cases n <;> decide, by decide, by decide, by decide⟩

theorem witness_LoadsReadOneWord :
    (withPc 0x7FFD#16).pc.toNat + 1 < 0x7FFF ∧ 0x7FFF ≤ (withPc 0x7FFE#16).pc.toNat + 1 ∧
    (0x7FFE#16).toNat < 0x7FFF ∧ 0x7FFF ≤ (0x7FFF#16).toNat ∧
    (bounds.reg 4).toNat < 0x7FFF ∧ 0x7FFF ≤ (bounds.reg 2).toNat := by decide

theorem witness_LoadnTakesTheRawWord :
    (withPc 0x7FFD#16).pc.toNat + 1 < 0x7FFF ∧ 0x7FFF ≤ (withPc 0x7FFE#16).pc.toNat + 1 := by decide

theorem witness_StoresWriteOneWord :
    (withPc 0x7FFD#16).pc.toNat + 1 < 0x7FFF ∧ 0x7FFF ≤ (withPc 0x7FFE#16).pc.toNat + 1 ∧
    (0x7FFE#16).toNat < 0x7FFF ∧ 0x7FFF ≤ (0x7FFF#16).toNat ∧
    (bounds.reg 4).toNat < 0x7FFF ∧ 0x7FFF ≤ (bounds.reg 2).toNat := by decide

/-- `store 0x0012, r1` at 0x0010 with r1 = `inc r2`. -/
def selfModifying : State := boot 0x0010#16 [0xC480#16, 0x0012#16] [.writeRegister 1 0x9100#16]

theorem witness_StoreIsSeenByTheNextFetch :
    selfModifying.pc.toNat + 1 < 0x7FFF ∧ selfModifying.fetch = some (.store 1 0x0012#16) ∧
    0x0012#16 = selfModifying.pc + 2#16 ∧ (0x0012#16).toNat < 0x7FFF ∧
    decodeWord selfModifying.params.icmcExtras (selfModifying.reg 1) 0#16 = .ok (.inc 2) := by decide

theorem witness_IncharTakesTheKeyOrFaults :
    ({ Hooks.fresh with inputAnswers := [.key 0xFF#8] } : Hooks).nextInput = .key 0xFF#8 ∧
    ({ Hooks.fresh with inputAnswers := [.fault] } : Hooks).nextInput = .fault := by decide

theorem witness_OutcharMakesTheEvent :
    ({ Hooks.fresh with outputAnswers := [.ok] } : Hooks).nextOutput = .ok ∧
    ({ Hooks.fresh with outputAnswers := [.fault] } : Hooks).nextOutput = .fault := by decide

theorem witness_HaltStaysOnItsWord :
    (boot 0x7FFE#16 [0x3FFF#16] []).pc.toNat < 0x7FFF ∧
    opcodeField ((boot 0x7FFE#16 [0x3FFF#16] []).readWord 0x7FFE#16) = 15#6 := by decide

theorem witness_BreakpStopsAndMayAdvance :
    (boot 0x7FFE#16 [0x3800#16] []).pc.toNat < 0x7FFF ∧
    opcodeField ((boot 0x7FFE#16 [0x3800#16] []).readWord 0x7FFE#16) = 14#6 ∧
    Params.default.breakpAdvances = true ∧
    ({ Params.default with breakpAdvances := false } : Params).breakpAdvances = false := by decide

theorem witness_ExtrasWriteCarryOrNothing :
    opcodeField 0x03FF#16 = 0#6 ∧ opcodeField 0x2200#16 = 8#6 := by decide

/-- `rts` at 0x7FFE on an empty stack: a routine fault at the last address a step may fetch at. -/
def faultingRts : State := boot 0x7FFE#16 [0x1000#16] []

theorem witness_FaultsLeaveTheStateUnchanged :
    faultingRts.pc.toNat < 0x7FFF ∧ faultingRts.fetch = some .rts ∧
    checkStep faultingRts (fun t => t.outcome == .fault
      { kind := .invalidStackPointer, addr := 0x7FFE#16, word := some 0x1000#16 }) = true := by decide

/-- Every clause: past the last address, unknown, a fault, and the no-fault cases (plain, a jump, rts, halt,
breakp). -/
theorem witness_NetPcChangeOfEveryStep :
    0x7FFF ≤ (withPc 0x7FFF#16).pc.toNat ∧ (State.reset.fetch = none) ∧
    checkStep faultingRts (fun t => faultKind t.outcome == some .invalidStackPointer) = true ∧
    checkStep lastInc (fun t => faultKind t.outcome == none) = true ∧
    (Instr.jmp 0x7FFF#16).jumpParts = some (.always, 0x7FFF#16) ∧
    checkStep (boot 0x7FFC#16 [0x0800#16, 0x7FFF#16] []) (fun t => faultKind t.outcome == none) = true ∧
    checkStep (boot 0#16 [0x1000#16] [.writeSp 0x7FFD#16]) (fun t => faultKind t.outcome == none) = true ∧
    checkStep (boot 0#16 [0x3C00#16] []) (fun t => faultKind t.outcome == none) = true ∧
    checkStep (boot 0#16 [0x3800#16] []) (fun t => faultKind t.outcome == none) = true := by decide

/-- For CounterCountsRoutines and BaselineIsNeverMutated: steps that answer a next state, a fault and a routine. -/
theorem witness_StepAnswersNext :
    step (withPc 0x7FFF#16) = .next (withPc 0x7FFF#16).faultPcOutOfRange ∧
    checkStep lastInc (fun _ => true) = true := ⟨rfl, by decide⟩

/-- For OnlyStackInstructionsWriteSp, OnlyTheDestinationRegisterChanges, OnlyTheListedFlagsChange and
OnlyStoresPushesAndCallsWriteMemory. -/
theorem witness_NotWritten :
    (Instr.inc 7).writesSp = false ∧ (Instr.inc 7).destination ≠ some 6 ∧
    (Instr.inc 7).writesFlag State.reset .divZero = false ∧ (Instr.inc 7).writesMemory = false ∧
    checkExec (.inc 7) State.reset (fun _ => true) = true := by decide

theorem witness_PcStaysInRangeWithoutFault :
    lastInc.pc.toNat ≤ 0x7FFF ∧ checkStep lastInc (fun t => t.outcome == .cont) = true := by decide

theorem witness_StepKeepsTheInvariant :
    lastInc.Inv ∧ checkStep lastInc (fun _ => true) = true :=
  ⟨⟨by decide, by decide, by decide, by decide, by decide⟩, by decide⟩

/-- Canonical memories, an image that is accepted and an edit that is. -/
theorem witness_HostOperationsKeepMemoryCanonical :
    Memory.wf lastInc.live ∧ Memory.wf lastInc.baseline ∧
    (∃ t, lastInc.loadImage (List.replicate imageBytes 0x3C#8) = .ok t) ∧
    (∃ t, lastInc.edit (.writeMemory 0x7FFF#16 0xFFFF#16) = .ok t) :=
  ⟨by decide, by decide, ⟨_, if_pos List.length_replicate⟩, ⟨_, rfl⟩⟩

theorem witness_DecodeOfEncode :
    (Instr.loadn 7 0xFFFF#16).wf false = true ∧ Instr.setc.wf true = true := by decide

/-- One pair of different words for every clause. -/
theorem witness_IgnoredBitsDoNotMatter :
    (opcodeField 0x1000#16 = opcodeField 0x13FF#16 ∧ (opcodeField 0x1000#16).toNat = 4) ∧
    (opcodeField 0x54A0#16 = opcodeField 0x54AF#16 ∧ (opcodeField 0x54A0#16).toNat = 21 ∧
      0x54A0#16 >>> 4 = 0x54AF#16 >>> 4) ∧
    (opcodeField 0xC080#16 = opcodeField 0xC0FF#16 ∧ (opcodeField 0xC080#16).toNat = 48 ∧
      0xC080#16 >>> 7 = 0xC0FF#16 >>> 7) ∧
    (opcodeField 0x0800#16 = opcodeField 0x083F#16 ∧ (opcodeField 0x0800#16).toNat = 2 ∧
      0x0800#16 >>> 6 = 0x083F#16 >>> 6) ∧
    (opcodeField 0x1440#16 = opcodeField 0x17FF#16 ∧ (opcodeField 0x1440#16).toNat = 5 ∧
      modeBit 0x1440#16 = true ∧ modeBit 0x17FF#16 = true) ∧
    (opcodeField 0xCCA0#16 = opcodeField 0xCCAC#16 ∧ (opcodeField 0xCCA0#16).toNat = 51 ∧
      0xCCA0#16 >>> 4 = 0xCCAC#16 >>> 4 ∧ movmodeField 0xCCA0#16 = movmodeField 0xCCAC#16) ∧
    (opcodeField 0x2200#16 = opcodeField 0x23FF#16 ∧ (opcodeField 0x2200#16).toNat = 8 ∧
      0x2200#16 >>> 9 = 0x23FF#16 >>> 9) := by decide

theorem witness_SizeDependsOnTheOpcodeAlone :
    decodeWord false 0x0BC0#16 0#16 = .ok (.jcond15 0#16) ∧ decodeWord false 0x9080#16 0#16 = .ok (.inc 1) := by
  decide

theorem witness_LoadImageFillsTheBaseline :
    ([] : List Byte).length ≠ 65536 ∧ (List.replicate 65536 0x3C#8).length = 65536 ∧
    (0x7FFF#16).toNat < 0x8000 :=
  ⟨by decide, List.length_replicate, by decide⟩

/-- `loadn r0` at 0 with a word that looks like a loadn as its operand, then `halt`. -/
def operandLooksLikeLoadn : State := boot 0#16 [0xE000#16, 0xE000#16, 0x3C00#16] []

/-- Both values of two_word, of the predicate and of the bound on the chain. -/
theorem witness_ThreeFormsOfTheLookbehindAgree :
    operandLooksLikeLoadn.live.twoWord false 0 = true ∧ operandLooksLikeLoadn.live.twoWord false 2 = false ∧
    operandLooksLikeLoadn.live.isOperand false 1 = true ∧ operandLooksLikeLoadn.live.isOperand false 2 = false ∧
    operandLooksLikeLoadn.live.chainLength false 2 = 2 ∧
    operandLooksLikeLoadn.live.chainLength false 3 < 3 ∧
    operandLooksLikeLoadn.live.scan false 1 = .expectOperand := by decide

/-- An address past memory, and one of each class; the last address in the raw view. -/
theorem witness_DisassembleClassifies :
    0x8000 ≤ (0x8000#16).toNat ∧ (0x7FFF#16).toNat < 0x8000 ∧
    operandLooksLikeLoadn.live.isOperand false (1#16).toNat = true ∧
    (operandLooksLikeLoadn.live.isOperand false (3#16).toNat = false ∧
      opcodeSize false (opcodeField (operandLooksLikeLoadn.readWord 3#16)).toNat = none) ∧
    (operandLooksLikeLoadn.live.isOperand false (2#16).toNat = false ∧
      opcodeSize false (opcodeField (operandLooksLikeLoadn.readWord 2#16)).toNat ≠ none) := by decide

/-- How a run ended. -/
def endOf : RunResult → Option RunEnd
  | .ended e _ => some e
  | .ongoing _ => none

theorem witness_RunsEndAsTheirLastStepAnswers :
    endOf ((boot 0#16 [0x9080#16, 0x3C00#16] []).runUntilHalt [[], []]) = some (.stopped .halt) ∧
    endOf (State.reset.runUntilHalt [[]]) =
      some (.faulted { kind := .unknownInstruction, addr := 0#16, word := none }) ∧
    endOf (lastInc.runUntilHalt [[.cancel]]) = some .cancelled := by decide

end Sys2Proof.Tests
end

section
/-! What the routines and the step answer: the converse of `step_cases`, and that one of its cases always
happens. -/

namespace Sys2Proof.Machine

/-- No routine ends the machine: a fault or stop is recorded in the state that every arm of `exec` answers
(00_scope.md R8; log entry 4). -/
theorem exec_answers_next (i : Instr) (s : State) : ∃ t, exec i s = .next t := by
  cases i <;> exact ⟨_, rfl⟩

/-- PC past the last address a step may fetch at (44_execution_engine.md R213). -/
theorem step_of_pc_ge {s : State} (hpc : ¬ s.pc.toNat < 0x7FFF) : step s = .next s.faultPcOutOfRange := by
  have hfetch : ¬ fetchOk s.pc = true := by rwa [fetchOk_iff]
  exact if_neg hfetch

/-- An opcode with no table entry (44_execution_engine.md R214). -/
theorem step_of_fetch_none {s : State} (hpc : s.pc.toNat < 0x7FFF) (hf : s.fetch = none) :
    step s = .next s.faultUnknown := by
  simp [step, hpc, hf]

/-- The routine of the fetched instruction, then the engine's bookkeeping (44_execution_engine.md R211, R215). -/
theorem step_of_fetch_some {s u : State} {i : Instr} (hpc : s.pc.toNat < 0x7FFF) (hf : s.fetch = some i)
    (hi : exec i s = .next u) : step s = .next (u.retire i.size) := by
  simp [step, hpc, hf, hi]

/-- Settles O4: the step's own two faults are states, and so is what the routine of a fetched instruction
answers. -/
theorem everyStepAnswersANextState : Obligations.EveryStepAnswersANextState := by
  intro s
  by_cases hpc : s.pc.toNat < 0x7FFF
  · cases hf : s.fetch with
    | none => exact ⟨_, step_of_fetch_none hpc hf⟩
    | some i =>
      obtain ⟨u, hu⟩ := exec_answers_next i s
      exact ⟨_, step_of_fetch_some hpc hf hu⟩
  · exact ⟨_, step_of_pc_ge hpc⟩

end Sys2Proof.Machine
end

section
/-! What a routine can do to the state, said once for all instructions, and the frame of each piece of the state
that follows: SP, the general registers, the flags, PC, the memories and the host's side (10_state.md). -/

namespace Sys2Proof

/-! ## Sizes and room for the next PC -/

/-- The word size is 1 or 2 (30_encoding.md R56). -/
theorem Instr.size_cases (i : Instr) : i.size = 1 ∨ i.size = 2 := by
  unfold Instr.size
  split
  · exact .inr rfl
  · exact .inl rfl

namespace Machine

/-- The instruction's words lie below the last address: a 1-word instruction that was fetched, or a 2-word
instruction that passed the operand check (20_memory.md R32). -/
def HasRoom (i : Instr) (s : State) : Prop := i.size = 1 ∨ s.pc.toNat + 1 < 0x7FFF

/-- PC past an instruction does not wrap (44_execution_engine.md R211). -/
theorem toNat_pc_add_size {s : State} (i : Instr) (hpc : s.pc.toNat < 0x7FFF) :
    (s.pc + BitVec.ofNat 16 i.size).toNat = s.pc.toNat + i.size := by
  rcases i.size_cases with h | h <;> rw [h, BitVec.toNat_add] <;> simp <;> omega

theorem pc_add_size_le_of_hasRoom {s : State} {i : Instr} (hpc : s.pc.toNat < 0x7FFF) (hroom : HasRoom i s) :
    (s.pc + BitVec.ofNat 16 i.size).toNat ≤ 0x7FFF := by
  rw [toNat_pc_add_size i hpc]
  have := i.size_cases
  unfold HasRoom at hroom
  omega

/-! ## The hooks of a state, written -/

/-- The environment behind the hooks is `h`: what a call of a hook writes (43_io_system.md R190, R191). -/
def State.setHooks (s : State) (h : Hooks) : State := { s with hooks := h }

section

variable (s : State) (h : Hooks)

@[simp] theorem State.setHooks_reg (r : RegIdx) : (s.setHooks h).reg r = s.reg r := rfl
@[simp] theorem State.setHooks_sp : (s.setHooks h).sp = s.sp := rfl
@[simp] theorem State.setHooks_pc : (s.setHooks h).pc = s.pc := rfl
@[simp] theorem State.setHooks_flags : (s.setHooks h).flags = s.flags := rfl
@[simp] theorem State.setHooks_live : (s.setHooks h).live = s.live := rfl
@[simp] theorem State.setHooks_baseline : (s.setHooks h).baseline = s.baseline := rfl
@[simp] theorem State.setHooks_running : (s.setHooks h).running = s.running := rfl
@[simp] theorem State.setHooks_outcome : (s.setHooks h).outcome = s.outcome := rfl
@[simp] theorem State.setHooks_params : (s.setHooks h).params = s.params := rfl

end

/-! ## The flags a shared operation writes -/

/-- The ALU template writes zero, carry and negative alone (40_alu.md R81). -/
theorem Flags.get_afterAlu (f : Flags) (r : Wide) {n : FlagName} (hn : Instr.writesFlag.isAluFlag n = false) :
    (f.afterAlu r).get n = f.get n := by
  cases n with
  | equal | greater | lesser | divZero => rfl
  | zero | carry | negative => cases hn

/-- A shift writes zero and negative alone, and those under SHIFT_WRITES_FLAGS (40_alu.md R96). -/
theorem Flags.get_afterShift (f : Flags) (writes : Bool) (res : Word) {n : FlagName}
    (hn : (writes && Instr.writesFlag.isShiftFlag n) = false) : (f.afterShift writes res).get n = f.get n := by
  cases writes with
  | false => rfl
  | true =>
    cases n with
    | equal | carry | greater | lesser | divZero => rfl
    | zero | negative => cases hn

/-! ## What a routine can do -/

/-- The ways in which the routine of `i` can end from `s`, each with what the specification's lists of writers and
the checks of the routine say of `i` there. -/
inductive Effect (i : Instr) (s : State) : State → Prop where
  /-- A fault, with nothing written (60_exceptions.md R264). -/
  | raises (k : Fault) : Effect i s (s.raise k)
  /-- A completion that writes at most flags. -/
  | writesFlags (f : Flags) (hroom : HasRoom i s)
      (hf : ∀ n, i.writesFlag s n = false → f.get n = s.flags.get n) : Effect i s (s.setFlags f).complete
  /-- A completion that writes the destination and at most flags. -/
  | writesRegister (rx : RegIdx) (v : Word) (f : Flags) (hroom : HasRoom i s)
      (hrx : i.destination = some rx) (hf : ∀ n, i.writesFlag s n = false → f.get n = s.flags.get n) :
      Effect i s ((s.setFlags f).setReg rx v).complete
  /-- mov sp,rx with a value in range (40_alu.md R105). -/
  | writesSp (v : Word) (hsize : i.size = 1) (hsp : i.writesSp = true) (hv : v.toNat ≤ 0x7FFF) :
      Effect i s (s.setSp v).complete
  /-- A store in range (42_memory_stack.md R175). -/
  | stores (a v : Word) (hroom : HasRoom i s) (hmem : i.writesMemory = true) (ha : a.toNat < 0x7FFF) :
      Effect i s (s.writeWord a v).complete
  /-- A push in range (42_memory_stack.md R171). -/
  | pushes (v : Word) (hsize : i.size = 1) (hsp : i.writesSp = true) (hmem : i.writesMemory = true)
      (hbound : 0 < s.sp.toNat ∧ s.sp.toNat < 0x8000) :
      Effect i s ((s.writeWord s.sp v).setSp (s.sp - 1#16)).complete
  /-- A pop of the destination in range (42_memory_stack.md R173). -/
  | popsRegister (rx : RegIdx) (v : Word) (hsize : i.size = 1) (hsp : i.writesSp = true)
      (hbound : s.sp.toNat < 0x7FFF) (hrx : i.destination = some rx) :
      Effect i s ((s.setSp (s.sp + 1#16)).setReg rx v).complete
  /-- A pop of the flags in range (42_memory_stack.md R174). -/
  | popsFlags (f : Flags) (hsize : i.size = 1) (hsp : i.writesSp = true) (hbound : s.sp.toNat < 0x7FFF)
      (hf : ∀ n, i.writesFlag s n = true) : Effect i s ((s.setSp (s.sp + 1#16)).setFlags f).complete
  /-- A taken jump to a target in range (41_control_flow.md R122). -/
  | jumps (target : Word) (hsize : i.size = 2) (ht : target.toNat ≤ 0x7FFF) :
      Effect i s (s.redirect target).complete
  /-- A taken call to a target in range (41_control_flow.md R138). -/
  | calls (v target : Word) (hsize : i.size = 2) (hsp : i.writesSp = true) (hmem : i.writesMemory = true)
      (hbound : 0 < s.sp.toNat ∧ s.sp.toNat < 0x8000) (ht : target.toNat ≤ 0x7FFF) :
      Effect i s (((s.writeWord s.sp v).setSp (s.sp - 1#16)).redirect target).complete
  /-- A return to an address in range (41_control_flow.md R154). -/
  | returns (target : Word) (hsize : i.size = 1) (hsp : i.writesSp = true) (hbound : s.sp.toNat < 0x7FFE)
      (ht : target.toNat ≤ 0x7FFF) : Effect i s ((s.setPc (target - 1#16)).setSp (s.sp + 1#16)).complete
  /-- A stop that PC passes (43_io_system.md R195). -/
  | stopsPast (r : StopReason) (hsize : i.size = 1) : Effect i s (s.stop r)
  /-- A stop that PC stays on (43_io_system.md R194, R195). -/
  | stopsOn (r : StopReason) (hsize : i.size = 1) : Effect i s (s.stayOnWord.stop r)
  /-- Any of these after a call of a hook (43_io_system.md R190, R191). -/
  | afterHook (h : Hooks) (t : State) (ht : Effect i s t) : Effect i s (t.setHooks h)

/-! ## The effect of each shared operation -/

section
variable {i : Instr} {s : State}

theorem HasRoom.of_operandOk (h : operandOk s.pc = true) : HasRoom i s := .inr ((operandOk_iff s.pc).mp h)

/-- A completion that writes nothing. -/
theorem Effect.completes (hroom : HasRoom i s) : Effect i s s.complete :=
  .writesFlags s.flags hroom fun _ _ => rfl

/-- A completion that writes the destination and no flag. -/
theorem Effect.setsReg {rx : RegIdx} (hroom : HasRoom i s) (hrx : i.destination = some rx) (v : Word) :
    Effect i s (s.setReg rx v).complete :=
  .writesRegister rx v s.flags hroom hrx fun _ _ => rfl

theorem Effect.writeAlu {rx : RegIdx} (hsize : i.size = 1) (hrx : i.destination = some rx)
    (hf : ∀ n, i.writesFlag s n = false → Instr.writesFlag.isAluFlag n = false) (r : Wide) :
    Effect i s (s.writeAlu rx r) :=
  .writesRegister rx (truncate r) (s.flags.afterAlu r) (.inl hsize) hrx fun n hn =>
    s.flags.get_afterAlu r (hf n hn)

theorem Effect.writeShift {rx : RegIdx} (hsize : i.size = 1) (hrx : i.destination = some rx)
    (hf : ∀ n, i.writesFlag s n = false → (s.params.shiftWritesFlags && Instr.writesFlag.isShiftFlag n) = false)
    (res : Word) : Effect i s (s.writeShift rx res) :=
  .writesRegister rx res (s.flags.afterShift s.params.shiftWritesFlags res) (.inl hsize) hrx fun n hn =>
    s.flags.get_afterShift _ res (hf n hn)

theorem Effect.jump (hsize : i.size = 2) (k : Cond) (target : Word) : Effect i s (s.jump k target) := by
  obtain ⟨-, h⟩ | ⟨hop, -, h⟩ | ⟨-, -, -, h⟩ | ⟨-, -, ht, h⟩ := s.jump_cases k target <;> rw [h]
  · exact .raises _
  · exact .completes (.inr hop)
  · exact .raises _
  · exact .jumps target hsize ht

theorem Effect.call (hsize : i.size = 2) (hsp : i.writesSp = true) (hmem : i.writesMemory = true) (k : Cond)
    (target : Word) : Effect i s (s.call k target) := by
  obtain ⟨-, h⟩ | ⟨hop, -, h⟩ | ⟨-, -, -, h⟩ | ⟨-, -, -, -, h⟩ | ⟨-, -, hbound, ht, h⟩ :=
    s.call_cases k target <;> rw [h]
  · exact .raises _
  · exact .completes (.inr hop)
  · exact .raises _
  · exact .raises _
  · exact .calls _ target hsize hsp hmem hbound ht

theorem Effect.reservedCondition : Effect i s s.reservedCondition := by
  obtain ⟨-, h⟩ | ⟨-, h⟩ := s.reservedCondition_cases <;> rw [h] <;> exact .raises _

theorem Effect.push (hsize : i.size = 1) (hsp : i.writesSp = true) (hmem : i.writesMemory = true) (v : Word) :
    Effect i s (s.push v) := by
  obtain ⟨hbound, h⟩ | ⟨-, h⟩ := s.push_cases v <;> rw [h]
  · exact .pushes v hsize hsp hmem hbound
  · exact .raises _

theorem Effect.loadFrom {rx : RegIdx} (hroom : HasRoom i s) (hrx : i.destination = some rx) (a : Word) :
    Effect i s (s.loadFrom rx a) := by
  obtain ⟨-, h⟩ | ⟨-, h⟩ := s.loadFrom_cases rx a <;> rw [h]
  · exact .setsReg hroom hrx _
  · exact .raises _

theorem Effect.storeTo (hroom : HasRoom i s) (hmem : i.writesMemory = true) (a v : Word) :
    Effect i s (s.storeTo a v) := by
  obtain ⟨ha, h⟩ | ⟨-, h⟩ := s.storeTo_cases a v <;> rw [h]
  · exact .stores a v hroom hmem ha
  · exact .raises _

/-- An instruction that raises OperandOutOfRange, or else has room (60_exceptions.md R265). -/
theorem Effect.ifOperandOk {t : State} (h : HasRoom i s → Effect i s t) :
    Effect i s (if operandOk s.pc then t else s.raise .operandOutOfRange) := by
  split
  case isTrue hop => exact h (.of_operandOk hop)
  case isFalse => exact .raises _

end

/-! ## The effect of the routines that are not one shared operation -/

/-- The routine of `i` answers a next state, in one of the ways of `Effect`. -/
abbrev AnswersEffect (i : Instr) (s : State) : Prop := ∃ t, exec i s = .next t ∧ Effect i s t

section
variable (s : State)

/-- div: a zero divisor writes div_zero; another one the ALU flags, and div_zero under DIV_CLEARS_DZ
(40_alu.md R88). -/
theorem answersEffect_div (rx ry rz : RegIdx) (c : Bool) : AnswersEffect (.div rx ry rz c) s := by
  refine ⟨_, rfl, ?_⟩
  by_cases hz : s.reg rz = 0#16
  · rw [if_pos hz]
    refine .writesFlags _ (.inl rfl) fun n hn => ?_
    cases n with
    | divZero => simp [Instr.writesFlag, hz] at hn
    | _ => rfl
  · rw [if_neg hz, State.aluBinary_eq]
    generalize carryIn _ _ _ _ = r
    obtain ⟨hclears, h⟩ | ⟨-, h⟩ := (s.writeAlu rx r).clearDivZero_cases <;> rw [h]
    · refine .writesRegister rx (truncate r) { s.flags.afterAlu r with divZero := false } (.inl rfl) rfl
        fun n hn => ?_
      cases n with
      | equal | greater | lesser => rfl
      | zero | carry | negative => simp [Instr.writesFlag, hz] at hn
      | divZero =>
        rw [State.writeAlu_params] at hclears
        simp [Instr.writesFlag, hclears] at hn
    · refine .writeAlu rfl rfl (fun n hn => ?_) r
      cases n with
      | equal | greater | lesser | divZero => rfl
      | zero | carry | negative => simp [Instr.writesFlag, hz] at hn

/-- mod: a zero divisor raises ModByZero, another one is an ALU operation (40_alu.md R89). -/
theorem answersEffect_mod (rx ry rz : RegIdx) (c : Bool) : AnswersEffect (.mod rx ry rz c) s := by
  refine ⟨_, rfl, ?_⟩
  by_cases hz : s.reg rz = 0#16
  · rw [if_pos hz]
    exact .raises _
  · rw [if_neg hz]
    refine .writeAlu rfl rfl (fun n hn => ?_) _
    cases n with
    | equal | greater | lesser | divZero => rfl
    | zero | carry | negative => simp [Instr.writesFlag, hz] at hn

/-- cmp writes equal, greater and lesser (40_alu.md R106). -/
theorem answersEffect_cmp (rx ry : RegIdx) : AnswersEffect (.cmp rx ry) s := by
  refine ⟨_, rfl, .writesFlags _ (.inl rfl) fun n hn => ?_⟩
  cases n with
  | equal | greater | lesser => cases hn
  | zero | carry | negative | divZero => rfl

/-- setc and clearc write carry (43_io_system.md R197, R198). -/
theorem Effect.writeCarry {i : Instr} (hsize : i.size = 1) (hf : i.writesFlag s .carry = true) (b : Bool) :
    Effect i s (s.setFlags { s.flags with carry := b }).complete := by
  refine .writesFlags _ (.inl hsize) fun n hn => ?_
  cases n with
  | carry => rw [hf] at hn; cases hn
  | _ => rfl

theorem answersEffect_movSpRx (rx : RegIdx) : AnswersEffect (.movSpRx rx) s := by
  refine ⟨_, rfl, ?_⟩
  split
  case isTrue hv => exact .writesSp _ rfl rfl ((spValueOk_iff _).mp hv)
  case isFalse => exact .raises _

theorem answersEffect_rts : AnswersEffect .rts s := by
  refine ⟨_, rfl, ?_⟩
  split_ifs with hsp ht
  · exact .returns _ rfl rfl ((rtsOk_iff _).mp hsp) ((targetOk_iff _).mp ht)
  · exact .raises _
  · exact .raises _

theorem answersEffect_popRx (rx : RegIdx) : AnswersEffect (.popRx rx) s := by
  refine ⟨_, rfl, ?_⟩
  split
  case isTrue hsp => exact .popsRegister rx _ rfl rfl ((popOk_iff _).mp hsp) rfl
  case isFalse => exact .raises _

theorem answersEffect_popFr : AnswersEffect .popFr s := by
  refine ⟨_, rfl, ?_⟩
  split
  case isTrue hsp => exact .popsFlags _ rfl rfl ((popOk_iff _).mp hsp) fun _ => rfl
  case isFalse => exact .raises _

theorem answersEffect_inchar (rx : RegIdx) : AnswersEffect (.inchar rx) s := by
  refine ⟨_, rfl, ?_⟩
  obtain ⟨v, -, h⟩ | ⟨-, h⟩ := s.callInput.takeKey_cases rx s.hooks.nextInput <;> rw [h]
  · exact .afterHook s.hooks.afterInput _ (.setsReg (.inl rfl) rfl _)
  · exact .afterHook s.hooks.afterInput _ (.raises .ioFaultInput)

theorem answersEffect_outchar (rx ry : RegIdx) : AnswersEffect (.outchar rx ry) s := by
  refine ⟨_, rfl, ?_⟩
  obtain ⟨-, h⟩ | ⟨-, h⟩ := (s.callOutput (s.reg rx) (s.reg ry)).takeAnswer_cases s.hooks.nextOutput <;> rw [h]
  · exact .afterHook (s.hooks.afterOutput { char := s.reg rx, pos := s.reg ry }) _ (.completes (.inl rfl))
  · exact .afterHook (s.hooks.afterOutput { char := s.reg rx, pos := s.reg ry }) _ (.raises .ioFaultOutput)

theorem answersEffect_breakp : AnswersEffect .breakp s := by
  refine ⟨_, rfl, ?_⟩
  split
  · exact .stopsPast .breakpoint rfl
  · exact .stopsOn .breakpoint rfl

end

/-- Every routine ends in one of these ways. -/
theorem answersEffect (i : Instr) (s : State) : AnswersEffect i s := by
  cases i with
  | add | addc | sub | subc | mult | and | or | xor | inc | dec =>
    refine ⟨_, rfl, .writeAlu rfl rfl ?_ _⟩
    exact fun _ hn => hn
  | div rx ry rz c => exact answersEffect_div s rx ry rz c
  | mod rx ry rz c => exact answersEffect_mod s rx ry rz c
  | shiftl0 | shiftl1 | shiftr0 | shiftr1 | rotl | rotr =>
    refine ⟨_, rfl, .writeShift rfl rfl ?_ _⟩
    exact fun _ hn => hn
  | not | movRxRy | movRxSp => exact ⟨_, rfl, .setsReg (.inl rfl) rfl _⟩
  | movSpRx rx => exact answersEffect_movSpRx s rx
  | cmp rx ry => exact answersEffect_cmp s rx ry
  | jmp | jeq | jne | jz | jnz | jc | jnc | jgr | jle | jeg | jel | jov | jno | jdz | jn =>
    exact ⟨_, rfl, .jump rfl _ _⟩
  | call | ceq | cne | cz | cnz | cc | cnc | cgr | cle | ceg | cel | cov | cno | cdz | cn =>
    exact ⟨_, rfl, .call rfl rfl rfl _ _⟩
  | jcond15 | ccond15 => exact ⟨_, rfl, .reservedCondition⟩
  | rts => exact answersEffect_rts s
  | pushRx | pushFr => exact ⟨_, rfl, .push rfl rfl rfl _⟩
  | popRx rx => exact answersEffect_popRx s rx
  | popFr => exact answersEffect_popFr s
  | load => exact ⟨_, rfl, .ifOperandOk fun hroom => .loadFrom hroom rfl _⟩
  | store => exact ⟨_, rfl, .ifOperandOk fun hroom => .storeTo hroom rfl _ _⟩
  | loadn => exact ⟨_, rfl, .ifOperandOk fun hroom => .setsReg hroom rfl _⟩
  | loadi => exact ⟨_, rfl, .loadFrom (.inl rfl) rfl _⟩
  | storei => exact ⟨_, rfl, .storeTo (.inl rfl) rfl _ _⟩
  | inchar rx => exact answersEffect_inchar s rx
  | outchar rx ry => exact answersEffect_outchar s rx ry
  | halt => exact ⟨_, rfl, .stopsOn .halt rfl⟩
  | breakp => exact answersEffect_breakp s
  | nop => exact ⟨_, rfl, .completes (.inl rfl)⟩
  | setc => exact ⟨_, rfl, .writeCarry s rfl rfl true⟩
  | clearc => exact ⟨_, rfl, .writeCarry s rfl rfl false⟩

theorem exec_effect {i : Instr} {s t : State} (h : exec i s = .next t) : Effect i s t := by
  obtain ⟨u, hu, heffect⟩ := answersEffect i s
  cases hu.symm.trans h
  exact heffect

/-! ## The frame of a routine -/

section
variable {i : Instr} {s t : State}

/-- No routine writes the baseline, `running` or the parameters (10_state.md R17, R23). -/
theorem Effect.keeps_hostSide (h : Effect i s t) :
    t.baseline = s.baseline ∧ t.running = s.running ∧ t.params = s.params := by
  induction h with
  | afterHook h t ht ih => simpa using ih
  | _ => exact ⟨rfl, rfl, rfl⟩

/-- SP changes only by an instruction of the list of 10_state.md R13. -/
theorem Effect.keeps_sp (h : Effect i s t) (hsp : i.writesSp = false) : t.sp = s.sp := by
  induction h with
  | raises | writesFlags | writesRegister | stores | jumps | stopsPast | stopsOn => rfl
  | writesSp _ _ h | pushes _ _ h | popsRegister _ _ _ h | popsFlags _ _ h | calls _ _ _ h | returns _ _ h =>
    rw [hsp] at h
    cases h
  | afterHook h t ht ih => simpa using ih

/-- A general register changes only as the destination (10_state.md R11). -/
theorem Effect.keeps_reg (h : Effect i s t) {r : RegIdx} (hr : i.destination ≠ some r) : t.reg r = s.reg r := by
  induction h with
  | writesRegister rx v f hroom hrx hf =>
    exact State.reg_setReg_other (s.setFlags f) v fun e => hr (e ▸ hrx)
  | popsRegister rx v hsize hsp hbound hrx =>
    exact State.reg_setReg_other (s.setSp _) v fun e => hr (e ▸ hrx)
  | afterHook h t ht ih => simpa using ih
  | _ => rfl

/-- A flag changes only where the table of 10_state.md R19 gives it. -/
theorem Effect.keeps_flag (h : Effect i s t) {n : FlagName} (hn : i.writesFlag s n = false) :
    t.flags.get n = s.flags.get n := by
  induction h with
  | writesFlags f hroom hf => exact hf n hn
  | writesRegister rx v f hroom hrx hf => exact hf n hn
  | popsFlags f hsize hsp hbound hf => rw [hf n] at hn; cases hn
  | afterHook h t ht ih => simpa using ih
  | _ => rfl

/-- The live memory changes only by an instruction of the list of 20_memory.md R30. -/
theorem Effect.keeps_live (h : Effect i s t) (hmem : i.writesMemory = false) : t.live = s.live := by
  induction h with
  | stores _ _ _ h | pushes _ _ _ h | calls _ _ _ _ h =>
    rw [hmem] at h
    cases h
  | afterHook h t ht ih => simpa using ih
  | _ => rfl

/-- SP stays in [0, 0x7FFF] (10_state.md R12). -/
theorem Effect.sp_le (h : Effect i s t) (hs : s.sp.toNat ≤ 0x7FFF) : t.sp.toNat ≤ 0x7FFF := by
  induction h with
  | raises | writesFlags | writesRegister | stores | jumps | stopsPast | stopsOn => exact hs
  | writesSp v hsize hsp hv => exact hv
  | pushes | calls =>
    change (s.sp - 1#16).toNat ≤ 0x7FFF
    bv_omega
  | popsRegister | popsFlags | returns =>
    change (s.sp + 1#16).toNat ≤ 0x7FFF
    bv_omega
  | afterHook h t ht ih => simpa using ih

/-- The live memory stays in canonical form (20_memory.md R31). -/
theorem Effect.live_wf (h : Effect i s t) (hs : Memory.wf s.live) : Memory.wf t.live := by
  induction h with
  | stores a v hroom hmem ha => exact Memory.writeWord_wf hs (Nat.lt_succ_of_lt ha) v
  | pushes v hsize hsp hmem hbound => exact Memory.writeWord_wf hs hbound.2 v
  | calls v target hsize hsp hmem hbound ht => exact Memory.writeWord_wf hs hbound.2 v
  | afterHook h t ht ih => simpa using ih
  | _ => exact hs

/-- The PC a routine leaves: where it was, on a fault; else one that the engine's addition brings to at most
0x7FFF (44_execution_engine.md R211; 90_conflicts.md C3). -/
theorem Effect.next_pc (h : Effect i s t) (hpc : s.pc.toNat < 0x7FFF) :
    ((∃ f, t.outcome = .fault f) ∧ t.pc = s.pc) ∨ (t.pc + BitVec.ofNat 16 i.size).toNat ≤ 0x7FFF := by
  induction h with
  | raises k => exact .inl ⟨⟨_, rfl⟩, rfl⟩
  | writesFlags f hroom => exact .inr (pc_add_size_le_of_hasRoom hpc hroom)
  | writesRegister rx v f hroom => exact .inr (pc_add_size_le_of_hasRoom hpc hroom)
  | stores a v hroom => exact .inr (pc_add_size_le_of_hasRoom hpc hroom)
  | writesSp v hsize | pushes v hsize | popsRegister rx v hsize | popsFlags f hsize | stopsPast r hsize =>
    exact .inr (pc_add_size_le_of_hasRoom hpc (.inl hsize))
  | jumps target hsize ht => exact .inr (by simpa [hsize] using ht)
  | calls v target hsize hsp hmem hbound ht => exact .inr (by simpa [hsize] using ht)
  | returns target hsize hsp hbound ht => exact .inr (by simpa [hsize] using ht)
  | stopsOn r hsize => exact .inr (by simpa [hsize] using hpc.le)
  | afterHook h t ht ih => simpa using ih

end

/-! ## The statements -/

/-- Everything a step can do, its routine by the way it ends (44_execution_engine.md R210). -/
theorem step_effect {s t : State} (h : step s = .next t) :
    (¬ s.pc.toNat < 0x7FFF ∧ t = s.faultPcOutOfRange) ∨
    (s.pc.toNat < 0x7FFF ∧ t = s.faultUnknown) ∨
    (s.pc.toNat < 0x7FFF ∧ ∃ i u, Effect i s u ∧ t = u.retire i.size) := by
  obtain ⟨hpc, ht⟩ | ⟨hpc, -, ht⟩ | ⟨hpc, i, u, -, hu, ht⟩ := step_cases h
  · exact .inl ⟨hpc, ht⟩
  · exact .inr (.inl ⟨hpc, ht⟩)
  · exact .inr (.inr ⟨hpc, i, u, exec_effect hu, ht⟩)

/-- Every step keeps PC at most 0x8000 (10_state.md R14): only the faults at 0x7FFE bring it there. -/
theorem step_pc_le {s t : State} (hs : s.pc.toNat ≤ 0x8000) (h : step s = .next t) : t.pc.toNat ≤ 0x8000 := by
  obtain ⟨-, rfl⟩ | ⟨hpc, rfl⟩ | ⟨hpc, i, u, hu, rfl⟩ := step_effect h
  · exact hs
  · rw [State.faultUnknown_pc]
    bv_omega
  · rw [State.retire_pc]
    obtain ⟨-, hpc_u⟩ | hle := hu.next_pc hpc
    · rw [hpc_u, toNat_pc_add_size i hpc]
      have := i.size_cases
      omega
    · exact hle.trans (by decide)

/-- Settles O49: the two faults of the step itself write at most PC, and each field of the invariant is kept by
every way a routine can end. -/
theorem stepKeepsTheInvariant : Obligations.StepKeepsTheInvariant := by
  intro s t hs h
  have hpc_le := step_pc_le hs.pc h
  obtain ⟨-, rfl⟩ | ⟨-, rfl⟩ | ⟨-, i, u, hu, rfl⟩ := step_effect h
  · exact { hs with pc := hpc_le }
  · exact { hs with pc := hpc_le }
  · obtain ⟨hbaseline, -, hparams⟩ := hu.keeps_hostSide
    exact {
      live := hu.live_wf hs.live
      baseline := by simpa [hbaseline] using hs.baseline
      params := by simpa [hparams] using hs.params
      sp := hu.sp_le hs.sp
      pc := hpc_le }

/-- Settles O43: neither the step's own two faults nor any way a routine can end writes these fields. -/
theorem baselineIsNeverMutated : Obligations.BaselineIsNeverMutated := by
  intro s t h
  obtain ⟨-, rfl⟩ | ⟨-, rfl⟩ | ⟨-, i, u, hu, rfl⟩ := step_effect h
  · exact ⟨rfl, rfl, rfl⟩
  · exact ⟨rfl, rfl, rfl⟩
  · exact hu.keeps_hostSide

/-- Settles O44: every way of ending that moves SP is one of a writer of SP. -/
theorem onlyStackInstructionsWriteSp : Obligations.OnlyStackInstructionsWriteSp :=
  fun _ _ _ h hsp => (exec_effect h).keeps_sp hsp

/-- Settles O45: every way of ending that writes a register writes the destination. -/
theorem onlyTheDestinationRegisterChanges : Obligations.OnlyTheDestinationRegisterChanges :=
  fun _ _ _ _ h hr => (exec_effect h).keeps_reg hr

/-- Settles O46: every way of ending that writes flags writes those of the table. -/
theorem onlyTheListedFlagsChange : Obligations.OnlyTheListedFlagsChange :=
  fun _ _ _ _ h hn => (exec_effect h).keeps_flag hn

/-- Settles O48: the step's own two answers are faults, and a routine that raises none leaves room for PC. -/
theorem pcStaysInRangeWithoutFault : Obligations.PcStaysInRangeWithoutFault := by
  intro s t _ h hfree
  obtain ⟨-, rfl⟩ | ⟨-, rfl⟩ | ⟨hpc, i, u, hu, rfl⟩ := step_effect h
  · exact absurd s.faultPcOutOfRange_outcome (hfree _)
  · exact absurd s.faultUnknown_outcome (hfree _)
  · obtain ⟨⟨f, hf⟩, -⟩ | hle := hu.next_pc hpc
    · exact absurd hf (hfree f)
    · exact hle

/-- Settles O50: both memories are empty, and the other fields are fixed values. -/
theorem resetStateHasTheInvariant : Obligations.ResetStateHasTheInvariant where
  live := Memory.nil_wf
  baseline := Memory.nil_wf
  params := by decide
  sp := by decide
  pc := by decide

end Machine
end Sys2Proof
end

section
/-! The flag-register image: each flag at its own bit, both ways (10_state.md R21), and its way over the stack
(42_memory_stack.md R172, R174). -/

namespace Sys2Proof

open Machine

/-- The flags in the order of the layout's positions (00_scope.md R5). -/
def flagNames : List FlagName := [.equal, .zero, .carry, .greater, .lesser, .negative, .divZero]

theorem mem_flagNames (n : FlagName) : n ∈ flagNames := by cases n <;> decide

/-- A layout with no repeated position is the injective map of 10_state.md R21. -/
theorem Config.FlagLayout.position_injective {l : Config.FlagLayout} (h : l.wf) :
    Function.Injective l.position := fun m n =>
  List.inj_on_of_nodup_map (f := l.position) (l := flagNames) h (mem_flagNames m) (mem_flagNames n)

namespace Machine

theorem Flags.ext_get {f g : Flags} (h : ∀ n, f.get n = g.get n) : f = g := by
  cases f
  cases g
  rw [Flags.mk.injEq]
  exact ⟨h .equal, h .zero, h .carry, h .greater, h .lesser, h .negative, h .divZero⟩

/-- The flags read from a word, by name. -/
theorem Flags.get_fromImage (l : Config.FlagLayout) (v : Word) (n : FlagName) :
    (Flags.fromImage l v).get n = v.getLsbD (l.position n).val := by
  cases n <;> rfl

/-- A bit of the image is set by the flags that the layout puts there. -/
theorem Flags.image_getLsbD (l : Config.FlagLayout) (f : Flags) {j : Nat} (hj : j < 16) :
    (f.image l).getLsbD j = flagNames.any fun n => f.get n && decide (j = (l.position n).val) := by
  simp only [Flags.image, BitVec.getLsbD_or, flagBit_getLsbD _ _ hj, flagNames, List.any_cons, List.any_nil,
    Bool.or_assoc, Bool.or_false]
  rfl

/-- The bit of an injective layout's image at a flag's position is the flag. -/
theorem Flags.image_getLsbD_position {l : Config.FlagLayout} (hl : l.wf) (f : Flags) (n : FlagName) :
    (f.image l).getLsbD (l.position n).val = f.get n := by
  have same : ∀ m, (l.position n).val = (l.position m).val ↔ m = n := fun m =>
    Fin.val_inj.trans (Config.FlagLayout.position_injective hl).eq_iff |>.trans eq_comm
  rw [Flags.image_getLsbD l f (l.position n).isLt, Bool.eq_iff_iff]
  simp [same, mem_flagNames]

theorem Flags.image_getLsbD_other {l : Config.FlagLayout} (f : Flags) {j : Nat} (hj : j < 16)
    (hother : ∀ n, (l.position n).val ≠ j) : (f.image l).getLsbD j = false := by
  simp [Flags.image_getLsbD l f hj, fun n => (hother n).symm]

/-- Reading back the image of an injective layout. -/
theorem Flags.fromImage_image {l : Config.FlagLayout} (hl : l.wf) (f : Flags) :
    Flags.fromImage l (f.image l) = f :=
  Flags.ext_get fun n => by rw [Flags.get_fromImage, Flags.image_getLsbD_position hl]

/-- A push in range (42_memory_stack.md R171). -/
theorem State.push_of_bounds {s : State} (v : Word) (hpos : 0 < s.sp.toNat) (hlt : s.sp.toNat < 0x8000) :
    s.push v = ((s.writeWord s.sp v).setSp (s.sp - 1#16)).complete :=
  if_pos ((pushOk_iff _).mpr ⟨hpos, hlt⟩)

/-- pop fr in range reads the flags from the word above SP (42_memory_stack.md R174). -/
theorem exec_popFr_of_bound {s : State} (h : s.sp.toNat < 0x7FFF) :
    exec .popFr s = .next
      ((s.setSp (s.sp + 1#16)).setFlags (Flags.fromImage s.params.flagLayout s.poppedWord)).complete :=
  congrArg Host.Outcome.next (if_pos ((popOk_iff _).mpr h))

/-- The word popped after a push is the word pushed. -/
theorem State.poppedWord_push (s : State) (v : Word) :
    ((s.writeWord s.sp v).setSp (s.sp - 1#16)).complete.poppedWord = v := by
  simp [State.poppedWord]

/-- Settles O30: the image of an injective layout holds each flag at its own bit, and a push puts it where the
next pop reads. -/
theorem flagImageRoundTrip : Obligations.FlagImageRoundTrip := by
  refine ⟨fun l f hl => ⟨f.image_getLsbD_position hl, fun j hj => f.image_getLsbD_other hj,
    f.fromImage_image hl⟩, Flags.get_fromImage, fun s hl hpos hlt => ?_⟩
  have hpush : exec .pushFr s = .next _ := congrArg Host.Outcome.next (s.push_of_bounds _ hpos hlt)
  have hsp : (s.sp - 1#16).toNat < 0x7FFF := by bv_omega
  refine ⟨_, _, hpush, exec_popFr_of_bound hsp, ?_, ?_, fun _ => rfl⟩
  · simp [State.poppedWord_push, Flags.fromImage_image hl]
  · simp

end Machine
end Sys2Proof
end

section
/-! The live memory: which routines write it (20_memory.md R30), and a store into the word that is fetched next
(20_memory.md R42). -/

namespace Sys2Proof

/-- The opcodes of the two-word instructions (30_encoding.md R56, R57). -/
theorem opcode_of_opcodeSize_two {extras : Bool} {op : Nat} (h : opcodeSize extras op = some 2) :
    op = 2 ∨ op = 3 ∨ op = 48 ∨ op = 49 ∨ op = 56 := by
  unfold opcodeSize at h
  split at h <;> simp_all

/-- A jump is encoded by its condition field (30_encoding.md R53). -/
theorem encodeFirst_decodeJump (k : BitVec 4) (target : Word) :
    encodeFirst (decodeJump k target) = encodeFCW 2#6 k := by
  fin_cases k <;> rfl

/-- A call is encoded by its condition field (30_encoding.md R53). -/
theorem encodeFirst_decodeCall (k : BitVec 4) (target : Word) :
    encodeFirst (decodeCall k target) = encodeFCW 3#6 k := by
  fin_cases k <;> rfl

/-- The operand word decides neither whether a word is an instruction nor the instruction's first word
(30_encoding.md R54, R58). -/
theorem decodeWord_map_encodeFirst (extras : Bool) (w imm imm' : Word) :
    (decodeWord extras w imm).map encodeFirst = (decodeWord extras w imm').map encodeFirst := by
  obtain hnone | hone | htwo := opcodeSize_cases extras (opcodeField w).toNat
  · rw [decodeWord_of_opcodeSize_none imm hnone, decodeWord_of_opcodeSize_none imm' hnone]
  · rw [decodeWord_of_opcodeSize_one imm hone, decodeWord_of_opcodeSize_one imm' hone]
  · rcases opcode_of_opcodeSize_two htwo with hjump | hcall | hload | hstore | hloadn
    · simp only [decodeWord, hjump, Except.map, encodeFirst_decodeJump]
    · simp only [decodeWord, hcall, Except.map, encodeFirst_decodeCall]
    · simp only [decodeWord, hload, Except.map, encodeFirst]
    · simp only [decodeWord, hstore, Except.map, encodeFirst]
    · simp only [decodeWord, hloadn, Except.map, encodeFirst]

/-- With another operand word, the decoder gives an instruction with the same first word. -/
theorem exists_decodeWord_of_decodeWord {extras : Bool} {w imm : Word} {i : Instr}
    (h : decodeWord extras w imm = .ok i) (imm' : Word) :
    ∃ j, decodeWord extras w imm' = .ok j ∧ encodeFirst j = encodeFirst i := by
  have hfirst := decodeWord_map_encodeFirst extras w imm' imm
  rw [h] at hfirst
  cases hj : decodeWord extras w imm' with
  | error e => simp [hj, Except.map] at hfirst
  | ok j => exact ⟨j, rfl, by simpa [hj, Except.map] using hfirst⟩

namespace Machine

/-- store in range (42_memory_stack.md R177). -/
theorem exec_store_of_bounds {s : State} {addr : Word} (rx : RegIdx) (hroom : s.pc.toNat + 1 < 0x7FFF)
    (ha : addr.toNat < 0x7FFF) :
    exec (.store rx addr) s = .next (s.writeWord addr (s.reg rx)).complete := by
  have hstore : s.storeTo addr (s.reg rx) = (s.writeWord addr (s.reg rx)).complete :=
    if_pos ((dataOk_iff addr).mpr ha)
  exact congrArg Host.Outcome.next ((if_pos ((operandOk_iff s.pc).mpr hroom)).trans hstore)

/-- Settles O34: the store leaves PC on the word it wrote and keeps the parameters, so the next fetch decodes the
stored value, with the operand word that stands after it. -/
theorem storeIsSeenByTheNextFetch : Obligations.StoreIsSeenByTheNextFetch := by
  rintro s rx addr hroom hfetch rfl ha
  refine ⟨_, step_of_fetch_some (by omega) hfetch (exec_store_of_bounds rx hroom ha), rfl, fun i imm hi => ?_⟩
  generalize ht : (s.writeWord (s.pc + 2#16) (s.reg rx)).complete.retire (Instr.store rx (s.pc + 2#16)).size = t
  have hpc : t.pc = s.pc + 2#16 := by rw [← ht]; rfl
  have hparams : t.params = s.params := by rw [← ht]; rfl
  have hword : t.readWord t.pc = s.reg rx := by rw [hpc, ← ht]; simp
  obtain ⟨j, hj, hfirst⟩ := exists_decodeWord_of_decodeWord hi (t.readWord (t.pc + 1#16))
  refine ⟨j, ?_, hfirst⟩
  rw [State.fetch_eq (hpc ▸ ha), hparams, hword, hj]
  rfl

/-- Settles O47: every way of ending that writes the live memory is one of a writer of memory. -/
theorem onlyStoresPushesAndCallsWriteMemory : Obligations.OnlyStoresPushesAndCallsWriteMemory :=
  fun _ _ _ h hmem => State.readByte_congr ((exec_effect h).keeps_live hmem)

end Machine
end Sys2Proof
end

section
/-! The decoder and the encoder (30_encoding.md): the sizes of the opcode table, the round trip, the words with no
table entry, the bits a format ignores, and the instruction that a step runs. -/

namespace Sys2Proof

/-! ## The opcode table and the sizes -/

/-- Every jump has its target as second word (30_encoding.md R54). -/
theorem size_decodeJump (k : BitVec 4) (target : Word) : (decodeJump k target).size = 2 := by
  fin_cases k <;> rfl

/-- Every call has its target as second word (30_encoding.md R54). -/
theorem size_decodeCall (k : BitVec 4) (target : Word) : (decodeCall k target).size = 2 := by
  fin_cases k <;> rfl

/-- Every shift mode has a 1-word instruction (30_encoding.md R61). -/
theorem size_decodeShift (m : BitVec 3) (rx : RegIdx) (n : Shamt) : (decodeShift m rx n).size = 1 := by
  fin_cases m <;> rfl

/-- Every move mode has a 1-word instruction (30_encoding.md R61). -/
theorem size_decodeMov (m : BitVec 2) (rx ry : RegIdx) : (decodeMov m rx ry).size = 1 := by
  fin_cases m <;> rfl

/-- The opcodes of the 2-word instructions (30_encoding.md R56, R57). -/
theorem opcodeSize_eq_two_iff (extras : Bool) (op : Nat) :
    opcodeSize extras op = some 2 ↔ op ∈ [2, 3, 48, 49, 56] := by
  simp only [List.mem_cons, List.not_mem_nil, or_false]
  refine ⟨opcode_of_opcodeSize_two, ?_⟩
  rintro (rfl | rfl | rfl | rfl | rfl) <;> rfl

/-- A decoded instruction has the size of its opcode in the table, and there is one exactly where the table has an
entry (30_encoding.md R56, R58). -/
theorem decodeWord_map_size (extras : Bool) (w imm : Word) :
    (decodeWord extras w imm).toOption.map Instr.size = opcodeSize extras (opcodeField w).toNat := by
  unfold decodeWord
  generalize (opcodeField w).toNat = op
  split
  -- h_1 and h_7 are the opcodes 0 and 8 of ICMC_EXTRAS; h_30 is every opcode with no entry.
  case h_1 => cases extras <;> rfl
  case h_7 => cases extras <;> cases setcBit w <;> rfl
  case h_2 => exact congrArg some (size_decodeJump _ _)
  case h_3 => exact congrArg some (size_decodeCall _ _)
  case h_5 | h_6 | h_20 => cases modeBit w <;> rfl
  case h_10 => exact congrArg some (size_decodeShift _ _ _)
  case h_16 | h_17 => cases carryBit w <;> rfl
  case h_25 => exact congrArg some (size_decodeMov _ _ _)
  case h_30 => simp_all [opcodeSize, Except.toOption]
  all_goals rfl

/-- Settles O56: the size is the table's, and the table holds 2 for five opcodes. -/
theorem sizeDependsOnTheOpcodeAlone : Obligations.SizeDependsOnTheOpcodeAlone := by
  intro extras w imm i hi
  have hsize : opcodeSize extras (opcodeField w).toNat = some i.size := by
    rw [← decodeWord_map_size extras w imm, hi]
    rfl
  exact ⟨hsize, by rw [← opcodeSize_eq_two_iff extras, hsize, Option.some.injEq]⟩

/-! ## The words with no table entry -/

/-- The decoder answers UnknownInstruction exactly where the table has no entry (30_encoding.md R58, R60). -/
theorem decodeWord_eq_unknown_iff (extras : Bool) (w imm : Word) :
    decodeWord extras w imm = .error (.unknownInstruction (opcodeField w)) ↔
      opcodeSize extras (opcodeField w).toNat = none := by
  refine ⟨fun h => ?_, decodeWord_of_opcodeSize_none imm⟩
  rw [← decodeWord_map_size extras w imm, h]
  rfl

/-- Settles O53: the table's entries, opcode by opcode. -/
theorem exactlyTheUnassignedOpcodesAreUnknown : Obligations.ExactlyTheUnassignedOpcodesAreUnknown := by
  intro w imm
  rw [decodeWord_eq_unknown_iff, decodeWord_eq_unknown_iff]
  generalize opcodeField w = op
  revert op
  decide

/-- Settles O54: each word, evaluated. -/
theorem decodedWordsFromTheRules : Obligations.DecodedWordsFromTheRules := by
  unfold Obligations.DecodedWordsFromTheRules
  decide

/-! ## The round trip -/

/-- The first word of a jump with condition field `k`. -/
theorem decodeWord_encodeFCW_jump (extras : Bool) (k : BitVec 4) (target : Word) :
    decodeWord extras (encodeFCW 2#6 k) target = .ok (decodeJump k target) := by
  simp [decodeWord]

/-- The first word of a call with condition field `k`. -/
theorem decodeWord_encodeFCW_call (extras : Bool) (k : BitVec 4) (target : Word) :
    decodeWord extras (encodeFCW 3#6 k) target = .ok (decodeCall k target) := by
  simp [decodeWord]

/-- The word of a shift with mode `m`, 5 and 7 included (30_encoding.md R61). -/
theorem decodeWord_encodeFSH (extras : Bool) (rx : RegIdx) (m : BitVec 3) (n : Shamt) (imm : Word) :
    decodeWord extras (encodeFSH 16#6 rx m n) imm = .ok (decodeShift m rx n) := by
  simp [decodeWord]

/-- The word of a move with mode `m`, 2 included (30_encoding.md R61). -/
theorem decodeWord_encodeFMV (extras : Bool) (rx ry : RegIdx) (m : BitVec 2) (imm : Word) :
    decodeWord extras (encodeFMV 51#6 rx ry m) imm = .ok (decodeMov m rx ry) := by
  simp [decodeWord]

/-- The decoder reads the instruction back from the words written for it (30_encoding.md R53, R63). -/
theorem decodeWord_encodeFirst {extras : Bool} {i : Instr} (hwf : i.wf extras = true) :
    decodeWord extras (encodeFirst i) ((encodeSecond i).getD 0#16) = .ok i := by
  cases i with
  | jmp t | jeq t | jne t | jz t | jnz t | jc t | jnc t | jgr t | jle t | jeg t | jel t | jov t | jno t | jdz t
  | jn t | jcond15 t => exact decodeWord_encodeFCW_jump extras _ t
  | call t | ceq t | cne t | cz t | cnz t | cc t | cnc t | cgr t | cle t | ceg t | cel t | cov t | cno t | cdz t
  | cn t | ccond15 t => exact decodeWord_encodeFCW_call extras _ t
  | shiftl0 rx n | shiftl1 rx n | shiftr0 rx n | shiftr1 rx n | rotl rx n | rotr rx n =>
    exact decodeWord_encodeFSH extras rx _ n _
  | movRxRy rx _ | movRxSp rx | movSpRx rx => exact decodeWord_encodeFMV extras rx _ _ _
  | load | store | loadn | inchar => simp [decodeWord, encodeFirst, encodeSecond]
  | add | addc | sub | subc | mult | div | mod | and | or | xor | not | cmp | loadi | storei | outchar | inc | dec
  | pushRx | pushFr | popRx | popFr | rts | halt | breakp => simp [decodeWord, encodeFirst]
  | nop | setc | clearc =>
    have hextras : extras = true := hwf
    simp [decodeWord, encodeFirst, hextras]

/-- A word with a 1-word entry is decoded alone (30_encoding.md R54, R56). -/
theorem decode_of_opcodeSize_one {extras : Bool} {w : Word} (rest : List Byte)
    (h : opcodeSize extras (opcodeField w).toNat = some 1) :
    decode extras (bytesOfWords [w] ++ rest) = (decodeWord extras w 0#16).map fun i => (i, rest) := by
  simp [bytesOfWords, decode, h]

/-- A word with a 2-word entry is decoded with the word after it (30_encoding.md R54, R56). -/
theorem decode_of_opcodeSize_two {extras : Bool} {w : Word} (imm : Word) (rest : List Byte)
    (h : opcodeSize extras (opcodeField w).toNat = some 2) :
    decode extras (bytesOfWords [w, imm] ++ rest) = (decodeWord extras w imm).map fun i => (i, rest) := by
  simp [bytesOfWords, decode, h]

/-- Settles O52: the first word gives the instruction back, and by its size the decoder takes as many words as the
encoder wrote. -/
theorem decodeOfEncode : Obligations.DecodeOfEncode := by
  intro extras i rest hwf
  have hword := decodeWord_encodeFirst hwf
  obtain ⟨hsize, -⟩ := sizeDependsOnTheOpcodeAlone extras _ _ i hword
  unfold encode
  rw [Instr.size] at hsize
  generalize encodeSecond i = second at hsize hword ⊢
  cases second with
  | none => exact (decode_of_opcodeSize_one rest hsize).trans (congrArg _ hword)
  | some imm => exact (decode_of_opcodeSize_two imm rest hsize).trans (congrArg _ hword)

/-! ## The bits a format ignores (30_encoding.md R59) -/

section
variable {w v : Word} {k j : Nat}

/-- Words that agree from bit `k` on agree on every bit from there. -/
theorem getLsbD_eq_of_ushiftRight_eq (h : w >>> k = v >>> k) (hk : k ≤ j) : w.getLsbD j = v.getLsbD j := by
  have hbit := congrArg (fun u : Word => u.getLsbD (j - k)) h
  simpa [Nat.add_sub_cancel' hk] using hbit

/-- Words that agree from bit `k` on agree on every field from there. -/
theorem extractLsb'_eq_of_ushiftRight_eq (h : w >>> k = v >>> k) (hk : k ≤ j) (len : Nat) :
    w.extractLsb' j len = v.extractLsb' j len := by
  ext n hn
  simpa using getLsbD_eq_of_ushiftRight_eq h (hk.trans (Nat.le_add_right j n))

theorem rxField_eq_of_ushiftRight_eq (h : w >>> k = v >>> k) (hk : k ≤ 7) : rxField w = rxField v :=
  extractLsb'_eq_of_ushiftRight_eq h hk 3

theorem ryField_eq_of_ushiftRight_eq (h : w >>> k = v >>> k) (hk : k ≤ 4) : ryField w = ryField v :=
  extractLsb'_eq_of_ushiftRight_eq h hk 3

theorem condField_eq_of_ushiftRight_eq (h : w >>> k = v >>> k) (hk : k ≤ 6) : condField w = condField v :=
  extractLsb'_eq_of_ushiftRight_eq h hk 4

theorem modeBit_eq_of_ushiftRight_eq (h : w >>> k = v >>> k) (hk : k ≤ 6) : modeBit w = modeBit v :=
  getLsbD_eq_of_ushiftRight_eq h hk

theorem setcBit_eq_of_ushiftRight_eq (h : w >>> k = v >>> k) (hk : k ≤ 9) : setcBit w = setcBit v :=
  getLsbD_eq_of_ushiftRight_eq h hk

end

/-- Settles O55: of each format the decoder reads the fields that the used bits hold, and no others. -/
theorem ignoredBitsDoNotMatter : Obligations.IgnoredBitsDoNotMatter := by
  intro extras w v imm hop
  simp only [List.mem_cons, List.not_mem_nil, or_false]
  refine ⟨?FN, ?F2R, ?F1, ?FCW_FRB, ?pushFr_popFr, ?FMV, ?FSC⟩
  case FN =>
    rintro (h | h | h | h) <;> simp only [decodeWord, ← hop, h]
  case F2R =>
    intro h hused
    have hrx := rxField_eq_of_ushiftRight_eq hused (by decide)
    have hry := ryField_eq_of_ushiftRight_eq hused (by decide)
    rcases h with h | h | h | h | h <;> simp only [decodeWord, ← hop, h, hrx, hry]
  case F1 =>
    intro h hused
    have hrx := rxField_eq_of_ushiftRight_eq hused (by decide)
    rcases h with h | h | h | h <;> simp only [decodeWord, ← hop, h, hrx]
  case FCW_FRB =>
    intro h hused
    have hcond := condField_eq_of_ushiftRight_eq hused (by decide)
    have hrx := rxField_eq_of_ushiftRight_eq hused (by decide)
    have hmode := modeBit_eq_of_ushiftRight_eq hused (by decide)
    rcases h with h | h | h | h | h <;> simp only [decodeWord, ← hop, h, hcond, hrx, hmode]
  case pushFr_popFr =>
    intro h hw hv
    rcases h with h | h <;> simp only [decodeWord, ← hop, h, hw, hv, if_true]
  case FMV =>
    intro h hused hmode
    have hrx := rxField_eq_of_ushiftRight_eq hused (by decide)
    have hry := ryField_eq_of_ushiftRight_eq hused (by decide)
    simp only [decodeWord, ← hop, h, hrx, hry, hmode]
  case FSC =>
    intro h hused
    have hset := setcBit_eq_of_ushiftRight_eq hused (by decide)
    simp only [decodeWord, ← hop, h, hset]

namespace Machine

/-! ## The step -/

/-- The status after a step that continues (44_execution_engine.md R216). -/
theorem EngineStatus.after_cont (st : EngineStatus) :
    st.after .cont = if st = .running then .running else .idle := by
  cases st <;> rfl

/-- A fetched instruction is the one that the two words at PC stand for (44_execution_engine.md R210). -/
theorem State.decodeWord_of_fetch {s : State} {i : Instr} (hpc : s.pc.toNat < 0x7FFF) (hf : s.fetch = some i) :
    decodeWord s.params.icmcExtras (s.readWord s.pc) (s.readWord (s.pc + 1#16)) = .ok i := by
  rw [State.fetch_eq hpc] at hf
  generalize decodeWord _ _ _ = d at hf ⊢
  cases d with
  | error => cases hf
  | ok j => exact congrArg Except.ok (Option.some.inj hf)

/-- Settles O3: the fetch is that of the two words at PC, and the engine's bookkeeping follows the routine. -/
theorem stepRunsTheDecodedInstruction : Obligations.StepRunsTheDecodedInstruction := by
  refine fun s hpc => ⟨State.fetch_eq hpc, fun i rest _ hdec => ?_⟩
  have hf : s.fetch = some i := by simp [State.fetch, hdec]
  obtain ⟨u, hu⟩ := exec_answers_next i s
  refine ⟨State.decodeWord_of_fetch hpc hf, u, u.retire i.size, hu, step_of_fetch_some hpc hf hu, rfl, ?_⟩
  simp only [State.retire_status]
  refine ⟨fun r h => ?_, fun f h => ?_, fun h hrun => ?_, fun h hrun => ?_⟩
  · rw [h]; rfl
  · rw [h]; rfl
  · rw [h, EngineStatus.after_cont, if_pos hrun]
  · rw [h, EngineStatus.after_cont, if_neg hrun]

end Machine
end Sys2Proof
end

section
/-! The first words of the ALU family as placed fields (30_encoding.md R53, R63). -/

namespace Sys2Proof

open Machine

/-- Format F3R with the carry-variant bit among the fixed bits. -/
theorem encodeF3R_eq_base (op : BitVec 6) (rx ry rz : RegIdx) (c : Bool) :
    encodeF3R op rx ry rz c = (op ++ 0#9 ++ BitVec.ofBool c) ||| at7 rx ||| at4 ry ||| at1 rz := by
  unfold encodeF3R at7 at4 at1; ext i hi; grind

/-- Format F3R with the carry-variant bit as an operand. -/
theorem encodeF3R_eq (op : BitVec 6) (rx ry rz : RegIdx) (c : Bool) :
    encodeF3R op rx ry rz c = (op ++ 0#10) ||| at7 rx ||| at4 ry ||| at1 rz ||| at0 c := by
  unfold encodeF3R at7 at4 at1 at0; cases c <;> ext i hi <;> grind

theorem encodeF2R_eq (op : BitVec 6) (rx ry : RegIdx) :
    encodeF2R op rx ry = (op ++ 0#10) ||| at7 rx ||| at4 ry := by
  unfold encodeF2R at7 at4; ext i hi; grind

theorem encodeFMV_eq (op : BitVec 6) (rx ry : RegIdx) (m : BitVec 2) :
    encodeFMV op rx ry m = (op ++ 0#8 ++ m) ||| at7 rx ||| at4 ry := by
  unfold encodeFMV at7 at4; ext i hi; grind

theorem encodeFRB_eq (op : BitVec 6) (rx : RegIdx) (b : Bool) :
    encodeFRB op rx b = (op ++ 0#3 ++ BitVec.ofBool b ++ 0#6) ||| at7 rx := by
  unfold encodeFRB at7; ext i hi; grind

theorem encodeFSH_eq (op : BitVec 6) (rx : RegIdx) (m : BitVec 3) (n : Shamt) :
    encodeFSH op rx m n = (op ++ 0#3 ++ m ++ 0#4) ||| at7 rx ||| amount0 n := by
  unfold encodeFSH at7 amount0; ext i hi; grind

end Sys2Proof
end

section
/-! The numbers that the ALU's operations give: the 32-bit results of widened words (40_alu.md R80 to R94), and the
shifts and rotates (R97 to R102). -/

namespace Sys2Proof.Machine

/-! ## Words and widened words -/

section
variable (a b : Word)

theorem widen_toNat : (widen a).toNat = a.toNat := BitVec.toNat_setWidth_of_le (by decide)

theorem wideAdd_toNat : (wideAdd (widen a) (widen b)).toNat = a.toNat + b.toNat := by
  rw [wideAdd, BitVec.toNat_add, widen_toNat, widen_toNat]
  omega

theorem wideSub_toNat : (wideSub (widen a) (widen b)).toNat = (2 ^ 32 + a.toNat - b.toNat) % 2 ^ 32 := by
  rw [wideSub, BitVec.toNat_sub, widen_toNat, widen_toNat]
  omega

/-- A product of two words leaves room for a carry-in in 32 bits (40_alu.md R87). -/
theorem toNat_mul_toNat_le : a.toNat * b.toNat ≤ 0xFFFE0001 :=
  Nat.mul_le_mul (Nat.le_of_lt_succ a.isLt) (Nat.le_of_lt_succ b.isLt)

theorem wideMul_toNat : (wideMul (widen a) (widen b)).toNat = a.toNat * b.toNat := by
  have := toNat_mul_toNat_le a b
  rw [wideMul, BitVec.toNat_mul, widen_toNat, widen_toNat]
  omega

theorem wideDiv_toNat : (wideDiv (widen a) (widen b)).toNat = a.toNat / b.toNat := by
  rw [wideDiv, BitVec.toNat_udiv, widen_toNat, widen_toNat]

/-- The difference of 40_alu.md R89 is the remainder, since the multiple of the divisor is at most `a`. -/
theorem wideMod_toNat : (wideMod (widen a) (widen b)).toNat = a.toNat % b.toNat := by
  have hle : b.toNat * (a.toNat / b.toNat) ≤ a.toNat := Nat.mul_div_le _ _
  have hmul : (widen b * (widen a / widen b)).toNat = b.toNat * (a.toNat / b.toNat) := by
    rw [BitVec.toNat_mul, BitVec.toNat_udiv, widen_toNat, widen_toNat]
    omega
  rw [wideMod, BitVec.toNat_sub_of_le (by rwa [BitVec.le_def, hmul, widen_toNat]), hmul, widen_toNat,
    Nat.mod_eq_sub]

theorem wideAnd_toNat : (wideAnd (widen a) (widen b)).toNat = a.toNat &&& b.toNat := by
  rw [wideAnd, BitVec.toNat_and, widen_toNat, widen_toNat]

theorem wideOr_toNat : (wideOr (widen a) (widen b)).toNat = a.toNat ||| b.toNat := by
  rw [wideOr, BitVec.toNat_or, widen_toNat, widen_toNat]

theorem wideXor_toNat : (wideXor (widen a) (widen b)).toNat = a.toNat ^^^ b.toNat := by
  rw [wideXor, BitVec.toNat_xor, widen_toNat, widen_toNat]

/-- The exclusive or with ones is the complement (40_alu.md R95). -/
theorem toNat_xor_ones : (a ^^^ 0xFFFF#16).toNat = 65535 - a.toNat := by
  have h : a ^^^ 0xFFFF#16 = ~~~a := BitVec.xor_allOnes
  rw [h, BitVec.toNat_not]

/-- The sign bit of a word by its number. -/
theorem getLsbD_fifteen_iff : a.getLsbD 15 = true ↔ 32768 ≤ a.toNat := by
  rw [BitVec.getLsbD, Nat.testBit_eq_decide_div_mod_eq, decide_eq_true_iff]
  omega

end

/-! ## The carry-in (40_alu.md R82) -/

theorem carryInNat_le (aware bit0 carry : Bool) : carryInNat aware bit0 carry ≤ 1 := by
  unfold carryInNat
  split <;> decide

theorem carryInNat_bit0_false (aware carry : Bool) : carryInNat aware false carry = 0 := by
  simp [carryInNat]

/-! ## Shifts -/

section
variable (a : Word) (n : Shamt)

theorem shiftLeftZeros_toNat : (shiftLeftZeros a n).toNat = a.toNat * 2 ^ n.toNat % 65536 := by
  rw [shiftLeftZeros, BitVec.toNat_shiftLeft, Nat.shiftLeft_eq]

theorem shiftRightZeros_toNat : (shiftRightZeros a n).toNat = a.toNat / 2 ^ n.toNat := by
  rw [shiftRightZeros, BitVec.toNat_ushiftRight, Nat.shiftRight_eq_div_pow]

/-- The ones that shiftl1 brings in are the low n bits (40_alu.md R98). -/
theorem lowOnes_toNat : ((1#16 <<< n.toNat) - 1#16).toNat = 2 ^ n.toNat - 1 := by
  revert n
  decide

/-- The ones that shiftr1 brings in are the high n bits (40_alu.md R100). -/
theorem highOnes_toNat :
    (0xFFFF#16 ^^^ (0xFFFF#16 >>> n.toNat)).toNat = (2 ^ n.toNat - 1) * 2 ^ (16 - n.toNat) := by
  revert n
  decide

/-- The high n bits are what the n-bit shift right leaves free. -/
theorem highOnes_eq : (2 ^ n.toNat - 1) * 2 ^ (16 - n.toNat) = 65536 - 65536 / 2 ^ n.toNat := by
  revert n
  decide

theorem two_pow_mul_two_pow_sub {k : Nat} (hk : k ≤ 16) : 2 ^ (16 - k) * 2 ^ k = 65536 := by
  rw [← Nat.pow_add, Nat.sub_add_cancel hk]

theorem toNat_div_two_pow_lt {k : Nat} (hk : k ≤ 16) : a.toNat / 2 ^ k < 2 ^ (16 - k) :=
  Nat.div_lt_of_lt_mul (by rw [Nat.mul_comm, two_pow_mul_two_pow_sub hk]; exact a.isLt)

/-- The low bits left free by a multiple of `2 ^ k` take a number below `2 ^ k` with no carry. -/
theorem or_mul_two_pow {x y k : Nat} (h : y < 2 ^ k) : x * 2 ^ k ||| y = x * 2 ^ k + y := by
  rw [← Nat.shiftLeft_eq, Nat.shiftLeft_add_eq_or_of_lt h]

theorem shiftLeftOnes_toNat :
    (shiftLeftOnes a n).toNat = (a.toNat * 2 ^ n.toNat + (2 ^ n.toNat - 1)) % 65536 := by
  have hlow : 2 ^ n.toNat - 1 < 2 ^ n.toNat := Nat.sub_lt (Nat.two_pow_pos _) Nat.one_pos
  have hword : (2 ^ n.toNat - 1) % 2 ^ 16 = 2 ^ n.toNat - 1 := by
    rw [← lowOnes_toNat]
    exact Nat.mod_eq_of_lt (BitVec.isLt _)
  rw [shiftLeftOnes, BitVec.toNat_or, BitVec.toNat_shiftLeft, Nat.shiftLeft_eq, lowOnes_toNat, ← or_mul_two_pow hlow]
  exact (congrArg _ hword.symm).trans Nat.or_mod_two_pow.symm

theorem shiftRightOnes_toNat :
    (shiftRightOnes a n).toNat = a.toNat / 2 ^ n.toNat + (65536 - 65536 / 2 ^ n.toNat) := by
  have hlow := toNat_div_two_pow_lt a (Nat.le_of_lt n.isLt)
  rw [shiftRightOnes, BitVec.toNat_or, BitVec.toNat_ushiftRight, Nat.shiftRight_eq_div_pow, highOnes_toNat,
    Nat.lor_comm, or_mul_two_pow hlow, highOnes_eq, Nat.add_comm]

/-! ## Rotates -/

/-- The bits shifted out on the left and those kept make one word with no carry (40_alu.md R101, R102). -/
theorem shiftLeft_or_ushiftRight_toNat {k : Nat} (hk : k ≤ 16) :
    ((a <<< k) ||| (a >>> (16 - k))).toNat = a.toNat * 2 ^ k % 65536 + a.toNat / 2 ^ (16 - k) := by
  have hkept : a.toNat * 2 ^ k % 65536 = a.toNat % 2 ^ (16 - k) * 2 ^ k := by
    rw [← two_pow_mul_two_pow_sub hk, Nat.mul_mod_mul_right]
  have hout : a.toNat / 2 ^ (16 - k) < 2 ^ k := by
    simpa [Nat.sub_sub_self hk] using toNat_div_two_pow_lt a (Nat.sub_le 16 k)
  rw [BitVec.toNat_or, BitVec.toNat_shiftLeft, Nat.shiftLeft_eq, BitVec.toNat_ushiftRight,
    Nat.shiftRight_eq_div_pow, hkept, or_mul_two_pow hout]

theorem rotateLeft_toNat :
    (rotateLeft a n).toNat = a.toNat * 2 ^ n.toNat % 65536 + a.toNat / 2 ^ (16 - n.toNat) := by
  unfold rotateLeft
  split
  case isTrue hn => subst hn; simp [Nat.mod_eq_of_lt a.isLt, Nat.div_eq_of_lt a.isLt]
  case isFalse => exact shiftLeft_or_ushiftRight_toNat a (Nat.le_of_lt n.isLt)

theorem rotateRight_toNat :
    (rotateRight a n).toNat = a.toNat / 2 ^ n.toNat + a.toNat * 2 ^ (16 - n.toNat) % 65536 := by
  unfold rotateRight
  split
  case isTrue hn => subst hn; simp
  case isFalse =>
    have h := shiftLeft_or_ushiftRight_toNat a (Nat.sub_le 16 n.toNat)
    rwa [Nat.sub_sub_self (Nat.le_of_lt n.isLt), BitVec.or_comm, Nat.add_comm] at h

end
end Sys2Proof.Machine
end

section
/-! The ALU family (40_alu.md): what the shared ends of its routines write and leave, and the statements on each
instruction. -/

namespace Sys2Proof.Machine

/-! ## The frames -/

section
variable {s : State}

/-- A routine that writes flags and one register (40_alu.md R80). -/
theorem OnlyRegister.setFlags_setReg (f : Flags) (rx : RegIdx) (v : Word) :
    OnlyRegister rx s ((s.setFlags f).setReg rx v).complete where
  outcome := rfl
  regs := fun _ h => State.reg_setReg_other (s.setFlags f) v h
  sp := rfl
  pc := rfl
  memory := fun _ => rfl
  hooks := rfl
  hostSide := ⟨rfl, rfl, rfl, rfl, rfl⟩

/-- A routine that writes one register alone (40_alu.md R95, R103, R104). -/
theorem OnlyRegister.setReg (rx : RegIdx) (v : Word) : OnlyRegister rx s (s.setReg rx v).complete :=
  .setFlags_setReg s.flags rx v

theorem OnlyRegister.writeAlu (rx : RegIdx) (r : Wide) : OnlyRegister rx s (s.writeAlu rx r) :=
  .setFlags_setReg _ rx _

theorem OnlyRegister.writeShift (rx : RegIdx) (res : Word) : OnlyRegister rx s (s.writeShift rx res) :=
  .setFlags_setReg (s.flags.afterShift s.params.shiftWritesFlags res) rx res

/-- A routine that writes flags alone (40_alu.md R88, R106). -/
theorem OnlyFlags.setFlags (f : Flags) : OnlyFlags s (s.setFlags f).complete where
  outcome := rfl
  regs := fun _ => rfl
  sp := rfl
  pc := rfl
  memory := fun _ => rfl
  hooks := rfl
  hostSide := ⟨rfl, rfl, rfl, rfl, rfl⟩

/-! ## The end of an ALU routine (40_alu.md R80 to R82) -/

/-- The three flags by the number that the 32-bit result is (40_alu.md R81). -/
theorem AluFlagsOf.of_flags {t : State} {r : Wide} (hzero : t.flags.zero = (truncate r == 0#16))
    (hcarry : t.flags.carry = decide (0xFFFF < r.toNat)) (hnegative : t.flags.negative = r.getLsbD 15) :
    AluFlagsOf r.toNat t := by
  refine ⟨?_, ?_, ?_⟩
  · rw [hzero, beq_iff_eq, ← BitVec.toNat_inj, BitVec.toNat_setWidth]
    rfl
  · rw [hcarry, decide_eq_true_iff]
    rfl
  · rw [hnegative, BitVec.getLsbD, Nat.testBit_eq_decide_div_mod_eq, decide_eq_true_iff]

theorem aluWrites_writeAlu (rx : RegIdx) (r : Wide) : AluWrites rx r.toNat s (s.writeAlu rx r) := by
  refine ⟨.writeAlu rx r, ?_, .of_flags rfl rfl rfl, rfl, rfl, rfl, rfl⟩
  rw [State.reg_writeAlu, if_pos rfl, BitVec.toNat_setWidth]

/-- The carry-in adds its number to the result (40_alu.md R82). -/
theorem carryIn_toNat_eq {r : Wide} {m : Nat} (hr : r.toNat = m) (aware bit0 carry : Bool) :
    (carryIn aware bit0 carry r).toNat = (m + carryInNat aware bit0 carry) % 2 ^ 32 :=
  hr ▸ carryIn_toNat aware bit0 carry r

/-- An ALU operation whose 32-bit result is the number `m` writes `m` and the carry-in, modulo 2^32. -/
theorem aluWrites_aluBinary {f : Wide → Wide → Wide} {ry rz : RegIdx} {m : Nat}
    (hf : (f (widen (s.reg ry)) (widen (s.reg rz))).toNat = m) (aware bit0 : Bool) (rx : RegIdx) :
    AluWrites rx ((m + carryInNat aware bit0 s.flags.carry) % 2 ^ 32) s
      (s.aluBinary f aware bit0 rx ry rz) := by
  rw [State.aluBinary_eq, ← carryIn_toNat_eq hf]
  exact aluWrites_writeAlu rx _

/-- An ALU operation whose result leaves room for the carry-in writes the exact number. -/
theorem aluWrites_aluBinary_of_lt {f : Wide → Wide → Wide} {ry rz : RegIdx} {m : Nat}
    (hf : (f (widen (s.reg ry)) (widen (s.reg rz))).toNat = m) (hm : m < 2 ^ 32 - 1) (aware bit0 : Bool)
    (rx : RegIdx) :
    AluWrites rx (m + carryInNat aware bit0 s.flags.carry) s (s.aluBinary f aware bit0 rx ry rz) := by
  have hle := carryInNat_le aware bit0 s.flags.carry
  have h := aluWrites_aluBinary hf aware bit0 rx
  rwa [Nat.mod_eq_of_lt (by omega)] at h

/-- The carry flag of an ALU result is its leaving 16 bits. -/
theorem AluWrites.carry_iff {rx : RegIdx} {r : Nat} {t : State} (h : AluWrites rx r s t) :
    t.flags.carry = true ↔ 65536 ≤ r := by
  obtain ⟨-, -, ⟨-, hcarry, -⟩, -⟩ := h
  exact hcarry

/-! ## div and mod by their divisor (40_alu.md R88, R89) -/

/-- div on a zero divisor (40_alu.md R88). -/
theorem exec_div_of_zero {rz : RegIdx} (hz : s.reg rz = 0#16) (rx ry : RegIdx) (c : Bool) :
    exec (.div rx ry rz c) s = .next (s.setFlags { s.flags with divZero := true }).complete :=
  congrArg Host.Outcome.next (if_pos hz)

/-- div on another divisor (40_alu.md R88). -/
theorem exec_div_of_ne_zero {rz : RegIdx} (hz : s.reg rz ≠ 0#16) (rx ry : RegIdx) (c : Bool) :
    exec (.div rx ry rz c) s =
      .next (s.aluBinary wideDiv s.params.carryAware.div c rx ry rz).clearDivZero :=
  congrArg Host.Outcome.next (if_neg hz)

/-- The ALU template and then div_zero, as one write of flags and register (40_alu.md R88). -/
theorem State.clearDivZero_writeAlu (rx : RegIdx) (r : Wide) :
    (s.writeAlu rx r).clearDivZero =
      ((s.setFlags { s.flags.afterAlu r with divZero := s.flags.divZero && !s.params.divClearsDz }).setReg rx
        (truncate r)).complete := by
  obtain ⟨hclears, h⟩ | ⟨hkeeps, h⟩ := (s.writeAlu rx r).clearDivZero_cases <;> rw [h]
  · rw [State.writeAlu_params] at hclears
    rw [hclears, Bool.not_true, Bool.and_false]
    rfl
  · rw [State.writeAlu_params] at hkeeps
    rw [hkeeps, Bool.not_false, Bool.and_true]
    rfl

/-- mod on a zero divisor (40_alu.md R89). -/
theorem exec_mod_of_zero {rz : RegIdx} (hz : s.reg rz = 0#16) (rx ry : RegIdx) (c : Bool) :
    exec (.mod rx ry rz c) s = .next (s.raise .modByZero) :=
  congrArg Host.Outcome.next (if_pos hz)

/-- mod on another divisor (40_alu.md R89). -/
theorem exec_mod_of_ne_zero {rz : RegIdx} (hz : s.reg rz ≠ 0#16) (rx ry : RegIdx) (c : Bool) :
    exec (.mod rx ry rz c) s = .next (s.aluBinary wideMod s.params.carryAware.mod c rx ry rz) :=
  congrArg Host.Outcome.next (if_neg hz)

/-! ## The end of a shift or rotate (40_alu.md R96) -/

/-- The common part of shift and rotate (40_alu.md R96). -/
theorem shiftWrites_writeShift (rx : RegIdx) (res : Word) : ShiftWrites rx res.toNat s (s.writeShift rx res) := by
  have hreg : (s.writeShift rx res).reg rx = res := by rw [State.reg_writeShift, if_pos rfl]
  refine ⟨.writeShift rx res, congrArg _ hreg, fun hkeeps => ?kept, fun hwrites => ?written⟩
  case kept => rw [State.writeShift_flags, hkeeps]; rfl
  case written =>
    have hflags : (s.writeShift rx res).flags =
        { s.flags with zero := res == 0#16, negative := res.getLsbD 15 } := by
      rw [State.writeShift_flags, hwrites]; rfl
    unfold KeepsCompareFlags
    rw [hflags]
    refine ⟨?_, getLsbD_fifteen_iff res, rfl, rfl, rfl, rfl, rfl⟩
    rw [beq_iff_eq, ← BitVec.toNat_inj]; rfl

/-- A shift whose result is the number `m`. -/
theorem shiftWrites_of_toNat_eq {res : Word} {m : Nat} (h : res.toNat = m) (rx : RegIdx) :
    ShiftWrites rx m s (s.writeShift rx res) :=
  h ▸ shiftWrites_writeShift rx res

end

/-! ## Comparing and moving -/

/-- Of the three comparisons of two words exactly one holds (40_alu.md R106). -/
theorem Flags.count_afterCmp (f : Flags) (a b : Word) :
    [(f.afterCmp a b).equal, (f.afterCmp a b).greater, (f.afterCmp a b).lesser].count true = 1 := by
  simp only [Flags.afterCmp]
  rcases lt_trichotomy a.toNat b.toNat with hlt | heq | hgt
  · have hne : a ≠ b := fun e => hlt.ne (congrArg _ e)
    simp [hne, hlt, hlt.le]
  · simp [BitVec.eq_of_toNat_eq heq]
  · have hne : a ≠ b := fun e => hgt.ne' (congrArg _ e)
    simp [hne, hgt, hgt.le]

/-- The word of a move as placed fields, decoded by its mode (30_encoding.md R61). -/
theorem decodeWord_move (extras : Bool) (rx ry : RegIdx) (m : BitVec 2) (imm : Word) :
    decodeWord extras ((51#6 ++ 0#8 ++ m) ||| at7 rx ||| at4 ry) imm = .ok (decodeMov m rx ry) := by
  rw [← encodeFMV_eq, decodeWord_encodeFMV]

/-! ## The statements: arithmetic -/

/-- Settles O7: the sum of two words fits in 32 bits, and the template writes it. -/
theorem addWrapsAndCarries : Obligations.AddWrapsAndCarries := by
  refine fun s rx ry rz => ⟨encodeF3R_eq_base _ _ _ _ _, _, rfl, ?_⟩
  have h := aluWrites_aluBinary_of_lt (wideAdd_toNat (s.reg ry) (s.reg rz)) (by omega) s.params.carryAware.add false rx
  rwa [carryInNat_bit0_false, Nat.add_zero] at h

/-- Settles O8: as add, with the carry-in. -/
theorem addcAddsTheCarry : Obligations.AddcAddsTheCarry := fun s rx ry rz =>
  ⟨encodeF3R_eq_base _ _ _ _ _, _, rfl,
    aluWrites_aluBinary_of_lt (wideAdd_toNat (s.reg ry) (s.reg rz)) (by omega) _ true rx⟩

/-- Settles O9: the template writes the 32-bit difference, which leaves 16 bits exactly on a borrow. -/
theorem subWrapsAndBorrows : Obligations.SubWrapsAndBorrows := by
  intro s rx ry rz
  have h := aluWrites_aluBinary (wideSub_toNat (s.reg ry) (s.reg rz)) s.params.carryAware.sub false rx
  rw [carryInNat_bit0_false, Nat.add_zero, Nat.mod_mod] at h
  refine ⟨encodeF3R_eq_base _ _ _ _ _, _, rfl, h, h.carry_iff.trans ?_⟩
  omega

/-- Settles O10: as sub, with the carry-in added to the 32-bit difference. -/
theorem subcAddsTheCarry : Obligations.SubcAddsTheCarry := by
  refine fun s rx ry rz => ⟨encodeF3R_eq_base _ _ _ _ _, _, rfl, ?_⟩
  have h := aluWrites_aluBinary (wideSub_toNat (s.reg ry) (s.reg rz)) s.params.carryAware.sub true rx
  rwa [Nat.mod_add_mod] at h

/-- Settles O11: the product and a carry-in fit in 32 bits. -/
theorem multKeepsTheLowWord : Obligations.MultKeepsTheLowWord := by
  refine fun s rx ry rz c => ⟨encodeF3R_eq _ _ _ _ _, _, rfl, ?_⟩
  have := toNat_mul_toNat_le (s.reg ry) (s.reg rz)
  exact aluWrites_aluBinary_of_lt (wideMul_toNat _ _) (by omega) _ c rx

/-- Settles O12: by the divisor, a write of div_zero alone, or the template with the quotient and then div_zero. -/
theorem divByNonZeroAndByZero : Obligations.DivByNonZeroAndByZero := by
  refine fun s rx ry rz c => ⟨encodeF3R_eq _ _ _ _ _, fun hz => ?byZero, fun hz => ?byNonZero⟩
  case byZero => exact ⟨_, exec_div_of_zero hz rx ry c, .setFlags _, rfl⟩
  case byNonZero =>
    have hle : (s.reg ry).toNat / (s.reg rz).toNat ≤ (s.reg ry).toNat := Nat.div_le_self _ _
    have hcarry := carryInNat_le s.params.carryAware.div c s.flags.carry
    have hr := carryIn_toNat_eq (wideDiv_toNat (s.reg ry) (s.reg rz)) s.params.carryAware.div c s.flags.carry
    rw [Nat.mod_eq_of_lt (by omega)] at hr
    rw [exec_div_of_ne_zero hz, State.aluBinary_eq, State.clearDivZero_writeAlu]
    refine ⟨_, rfl, .setFlags_setReg _ rx _, ?_, hr ▸ .of_flags rfl rfl rfl, rfl, rfl, rfl, rfl⟩
    rw [State.complete_reg, State.reg_setReg_same, BitVec.toNat_setWidth, hr]

/-- Settles O13: by the divisor, a fault, or the template with the remainder. -/
theorem modByNonZeroAndByZero : Obligations.ModByNonZeroAndByZero := by
  refine fun s rx ry rz c => ⟨encodeF3R_eq _ _ _ _ _, fun hz => exec_mod_of_zero hz rx ry c, fun hz => ?_⟩
  have hle : (s.reg ry).toNat % (s.reg rz).toNat ≤ (s.reg ry).toNat := Nat.mod_le _ _
  exact ⟨_, exec_mod_of_ne_zero hz rx ry c, aluWrites_aluBinary_of_lt (wideMod_toNat _ _) (by omega) _ c rx⟩

/-- Settles O14: the two operations are those of add and sub with the word 1, and no carry-in. -/
theorem incAndDecWrap : Obligations.IncAndDecWrap := by
  refine fun s rx => ⟨encodeFRB_eq _ _ _, encodeFRB_eq _ _ _, ⟨_, rfl, ?inc⟩, ⟨_, rfl, ?dec⟩⟩
  case inc =>
    have h := wideAdd_toNat (s.reg rx) 1#16
    exact h ▸ aluWrites_writeAlu rx _
  case dec =>
    have h := wideSub_toNat (s.reg rx) 1#16
    exact h ▸ aluWrites_writeAlu rx _

/-! ## The statements: logic -/

/-- Settles O15: a bitwise result of words is below 2^16, and the template writes it with the carry-in. -/
theorem bitwiseLogicWritesFlags : Obligations.BitwiseLogicWritesFlags := by
  intro s rx ry rz c
  have hand := Nat.and_lt_two_pow (s.reg ry).toNat (s.reg rz).isLt
  have hor := Nat.or_lt_two_pow (s.reg ry).isLt (s.reg rz).isLt
  have hxor := Nat.xor_lt_two_pow (s.reg ry).isLt (s.reg rz).isLt
  refine ⟨encodeF3R_eq _ _ _ _ _, encodeF3R_eq _ _ _ _ _, encodeF3R_eq _ _ _ _ _, ⟨_, rfl, ?and⟩, ⟨_, rfl, ?or⟩,
    ⟨_, rfl, ?xor⟩⟩
  case and => exact aluWrites_aluBinary_of_lt (wideAnd_toNat _ _) (hand.trans (by decide)) _ c rx
  case or => exact aluWrites_aluBinary_of_lt (wideOr_toNat _ _) (hor.trans (by decide)) _ c rx
  case xor => exact aluWrites_aluBinary_of_lt (wideXor_toNat _ _) (hxor.trans (by decide)) _ c rx

/-- Settles O16: not writes the complement into one register alone. -/
theorem notComplementsWithoutFlags : Obligations.NotComplementsWithoutFlags := by
  refine fun s rx ry => ⟨encodeF2R_eq _ _ _, _, rfl, .setReg rx _, ?_, rfl⟩
  rw [State.complete_reg, State.reg_setReg_same, toNat_xor_ones]

/-! ## The statements: shift and rotate -/

/-- Settles O17: each result is the number of its rule, and the common part of the shifts writes it. -/
theorem shiftsFillWithZerosOrOnes : Obligations.ShiftsFillWithZerosOrOnes := fun _ rx n =>
  ⟨encodeFSH_eq _ _ _ _, encodeFSH_eq _ _ _ _, encodeFSH_eq _ _ _ _, encodeFSH_eq _ _ _ _,
    ⟨_, rfl, shiftWrites_of_toNat_eq (shiftLeftZeros_toNat _ n) rx⟩,
    ⟨_, rfl, shiftWrites_of_toNat_eq (shiftLeftOnes_toNat _ n) rx⟩,
    ⟨_, rfl, shiftWrites_of_toNat_eq (shiftRightZeros_toNat _ n) rx⟩,
    ⟨_, rfl, shiftWrites_of_toNat_eq (shiftRightOnes_toNat _ n) rx⟩⟩

/-- Settles O18: the modes 5 and 7 are decoded from their own words, and each result is the number of its rule. -/
theorem rotatesKeepEveryBit : Obligations.RotatesKeepEveryBit := by
  intro s rx n extras imm
  have hrotl := decodeWord_encodeFSH extras rx 5#3 n imm
  have hrotr := decodeWord_encodeFSH extras rx 7#3 n imm
  rw [encodeFSH_eq] at hrotl hrotr
  exact ⟨encodeFSH_eq _ _ _ _, encodeFSH_eq _ _ _ _, hrotl, hrotr,
    ⟨_, rfl, shiftWrites_of_toNat_eq (rotateLeft_toNat _ n) rx⟩,
    ⟨_, rfl, shiftWrites_of_toNat_eq (rotateRight_toNat _ n) rx⟩⟩

/-! ## The statements: move and compare -/

/-- Settles O19: both copies write one register alone, and the modes 2 and 1 are decoded from their own words. -/
theorem movesIntoARegister : Obligations.MovesIntoARegister := fun s rx ry extras imm =>
  ⟨encodeFMV_eq _ _ _ _, decodeWord_move extras rx ry 2#2 imm, decodeWord_move extras rx ry 1#2 imm,
    ⟨_, rfl, .setReg rx _, State.reg_setReg_same s rx _, rfl⟩,
    ⟨_, rfl, .setReg rx _, State.reg_setReg_same s rx _, rfl⟩⟩

/-- Settles O20: the check on the value decides between the write of SP and the fault. -/
theorem movIntoSpChecksItsValue : Obligations.MovIntoSpChecksItsValue := by
  refine fun s rx ry extras imm => ⟨decodeWord_move extras rx ry 3#2 imm, fun hv => ?inRange, fun hv => ?tooLarge⟩
  case inRange =>
    have hexec : exec (.movSpRx rx) s = .next (s.setSp (s.reg rx)).complete :=
      congrArg Host.Outcome.next (if_pos ((spValueOk_iff _).mpr hv))
    exact ⟨_, hexec, rfl, rfl, rfl, rfl, fun _ => rfl, fun _ => rfl, rfl, ⟨rfl, rfl, rfl, rfl, rfl⟩⟩
  case tooLarge => exact congrArg Host.Outcome.next (if_neg (mt (spValueOk_iff _).mp (Nat.not_le.mpr hv)))

/-- Settles O21: the three flags are the three comparisons, of which exactly one holds. -/
theorem cmpIsUnsignedAndExclusive : Obligations.CmpIsUnsignedAndExclusive := by
  refine fun s rx ry => ⟨encodeF2R_eq _ _ _, _, rfl, .setFlags _, ?equal, decide_eq_true_iff, decide_eq_true_iff,
    rfl, rfl, rfl, rfl, s.flags.count_afterCmp _ _⟩
  case equal => exact beq_iff_eq.trans BitVec.toNat_inj.symm

end Sys2Proof.Machine
end

section
/-! Control flow (41_control_flow.md): the two condition tables as the condition codes in their order, how a jump, a
call, a reserved condition and a return end in each case of their checks, and the statements on them. -/

namespace Sys2Proof

open Machine

/-! ## The condition codes and the two tables (41_control_flow.md R120) -/

/-- The number of a condition code, the `k` of the condition field. -/
def Machine.Cond.number (k : Cond) : BitVec 4 := BitVec.ofNat 4 k.ctorIdx

/-- The condition codes in the order of their numbers. -/
def conditions : List Cond :=
  [.always, .equal, .notEqual, .zero, .notZero, .carry, .notCarry, .greater, .lesser, .equalOrGreater,
   .equalOrLesser, .overflow, .notOverflow, .divZero, .negative]

/-- The jumps of the truth table are what the decoder gives for the condition codes, each with its test. -/
theorem jumpTable_eq_map (f : Flags) (target : Word) :
    jumpTable f target =
      conditions.map fun k => (decodeJump k.number target, encodeFCW 2#6 k.number, k.holds f) := rfl

/-- The calls of the truth table are what the decoder gives for the condition codes, each with its test. -/
theorem callTable_eq_map (f : Flags) (target : Word) :
    callTable f target =
      conditions.map fun k => (decodeCall k.number target, encodeFCW 3#6 k.number, k.holds f) := rfl

theorem encodeSecond_decodeJump (k : BitVec 4) (target : Word) : encodeSecond (decodeJump k target) = some target := by
  fin_cases k <;> rfl

theorem encodeSecond_decodeCall (k : BitVec 4) (target : Word) : encodeSecond (decodeCall k target) = some target := by
  fin_cases k <;> rfl

namespace Machine

/-- Every jump is the shared jump with the condition of its number (41_control_flow.md R123 to R137). -/
theorem exec_decodeJump (k : Cond) (target : Word) (s : State) :
    exec (decodeJump k.number target) s = .next (s.jump k target) := by
  cases k <;> rfl

/-- Every call is the shared call with the condition of its number (41_control_flow.md R139 to R153). -/
theorem exec_decodeCall (k : Cond) (target : Word) (s : State) :
    exec (decodeCall k.number target) s = .next (s.call k target) := by
  cases k <;> rfl

/-! ## The two checks, failed -/

theorem not_operandOk {pc : Word} (h : 0x7FFF ≤ pc.toNat + 1) : ¬ operandOk pc = true :=
  mt (operandOk_iff pc).mp (Nat.not_lt.mpr h)

theorem not_targetOk {target : Word} (h : 0x7FFF < target.toNat) : ¬ targetOk target = true :=
  mt (targetOk_iff target).mp (Nat.not_le.mpr h)

section
variable {s : State} {k : Cond} {target : Word}

/-! ## The ends of a jump (41_control_flow.md R122), in the order of its checks (60_exceptions.md R265) -/

theorem State.jump_of_no_operand (hpc : 0x7FFF ≤ s.pc.toNat + 1) :
    s.jump k target = s.faultedWith .operandOutOfRange :=
  if_neg (not_operandOk hpc)

theorem State.jump_of_not_holds (hpc : s.pc.toNat + 1 < 0x7FFF) (hk : k.holds s.flags = false) :
    s.jump k target = s.complete := by
  rw [State.jump, if_pos ((operandOk_iff _).mpr hpc), hk]
  rfl

theorem State.jump_of_target_gt (hpc : s.pc.toNat + 1 < 0x7FFF) (hk : k.holds s.flags = true)
    (ht : 0x7FFF < target.toNat) : s.jump k target = s.faultedWith .invalidTarget := by
  rw [State.jump, if_pos ((operandOk_iff _).mpr hpc), if_pos hk, if_neg (not_targetOk ht)]
  rfl

theorem State.jump_of_taken (hpc : s.pc.toNat + 1 < 0x7FFF) (hk : k.holds s.flags = true)
    (ht : target.toNat ≤ 0x7FFF) : s.jump k target = (s.redirect target).complete := by
  rw [State.jump, if_pos ((operandOk_iff _).mpr hpc), if_pos hk, if_pos ((targetOk_iff _).mpr ht)]

/-! ## The ends of a call (41_control_flow.md R138), in the order of its checks (60_exceptions.md R265) -/

/-- The state in which a taken call ends: the return address pushed, PC two below the target. -/
def State.afterCall (s : State) (target : Word) : State :=
  (((s.writeWord s.sp s.returnAddress).setSp (s.sp - 1#16)).redirect target).complete

theorem State.call_of_no_operand (hpc : 0x7FFF ≤ s.pc.toNat + 1) :
    s.call k target = s.faultedWith .operandOutOfRange :=
  if_neg (not_operandOk hpc)

theorem State.call_of_not_holds (hpc : s.pc.toNat + 1 < 0x7FFF) (hk : k.holds s.flags = false) :
    s.call k target = s.complete := by
  rw [State.call, if_pos ((operandOk_iff _).mpr hpc), hk]
  rfl

theorem State.call_of_no_room (hpc : s.pc.toNat + 1 < 0x7FFF) (hk : k.holds s.flags = true)
    (hsp : s.sp.toNat = 0 ∨ 0x8000 ≤ s.sp.toNat) : s.call k target = s.faultedWith .invalidStackPointer := by
  have hpush : ¬ pushOk s.sp = true := by
    rw [pushOk_iff]
    omega
  rw [State.call, if_pos ((operandOk_iff _).mpr hpc), if_pos hk, if_neg hpush]
  rfl

theorem State.call_of_target_gt (hpc : s.pc.toNat + 1 < 0x7FFF) (hk : k.holds s.flags = true)
    (hpos : 0 < s.sp.toNat) (hlt : s.sp.toNat < 0x8000) (ht : 0x7FFF < target.toNat) :
    s.call k target = s.faultedWith .invalidTarget := by
  rw [State.call, if_pos ((operandOk_iff _).mpr hpc), if_pos hk, if_pos ((pushOk_iff _).mpr ⟨hpos, hlt⟩),
    if_neg (not_targetOk ht)]
  rfl

theorem State.call_of_taken (hpc : s.pc.toNat + 1 < 0x7FFF) (hk : k.holds s.flags = true)
    (hpos : 0 < s.sp.toNat) (hlt : s.sp.toNat < 0x8000) (ht : target.toNat ≤ 0x7FFF) :
    s.call k target = s.afterCall target := by
  rw [State.call, if_pos ((operandOk_iff _).mpr hpc), if_pos hk, if_pos ((pushOk_iff _).mpr ⟨hpos, hlt⟩),
    if_pos ((targetOk_iff _).mpr ht)]
  rfl

/-! ## The ends of a return (41_control_flow.md R154) -/

/-- The state in which a return ends: PC one below the word above SP, SP one up. -/
def State.afterRts (s : State) : State :=
  ((s.setPc (s.readWord (s.sp + 1#16) - 1#16)).setSp (s.sp + 1#16)).complete

theorem exec_rts_of_bounds (hsp : s.sp.toNat < 0x7FFE) (hret : (s.readWord (s.sp + 1#16)).toNat ≤ 0x7FFF) :
    exec .rts s = .next s.afterRts :=
  congrArg Host.Outcome.next ((if_pos ((rtsOk_iff _).mpr hsp)).trans (if_pos ((targetOk_iff _).mpr hret)))

theorem exec_rts_of_sp_ge (hsp : 0x7FFE ≤ s.sp.toNat) : exec .rts s = .next (s.faultedWith .invalidStackPointer) :=
  congrArg Host.Outcome.next (if_neg (mt (rtsOk_iff _).mp (Nat.not_lt.mpr hsp)))

theorem exec_rts_of_target_gt (hsp : s.sp.toNat < 0x7FFE) (hret : 0x7FFF < (s.readWord (s.sp + 1#16)).toNat) :
    exec .rts s = .next (s.faultedWith .invalidTarget) :=
  congrArg Host.Outcome.next ((if_pos ((rtsOk_iff _).mpr hsp)).trans (if_neg (not_targetOk hret)))

/-! ## The frames -/

/-- A routine that writes PC alone. -/
theorem OnlyPc.setPc (v : Word) : OnlyPc s (s.setPc v).complete where
  outcome := rfl
  regs := fun _ => rfl
  sp := rfl
  flags := rfl
  memory := fun _ => rfl
  hooks := rfl
  hostSide := ⟨rfl, rfl, rfl, rfl, rfl⟩

/-- A routine that writes nothing. -/
theorem OnlyPc.complete : OnlyPc s s.complete := .setPc s.pc

theorem State.toNat_returnAddress (hpc : s.pc.toNat + 1 < 0x7FFF) : s.returnAddress.toNat = s.pc.toNat + 2 := by
  unfold State.returnAddress
  bv_omega

/-- The word at the old SP is the return address. -/
theorem State.readWord_afterCall_same (s : State) (target : Word) :
    (s.afterCall target).readWord s.sp = s.returnAddress :=
  State.readWord_writeWord_same s _ _

theorem State.readWord_afterCall_other {a : Word} (ha : a ≠ s.sp) (target : Word) :
    (s.afterCall target).readWord a = s.readWord a :=
  State.readWord_writeWord_other s _ _ _ ha

theorem State.keepsMemoryBut_afterCall (s : State) (target : Word) : KeepsMemoryBut s.sp s (s.afterCall target) :=
  Memory.readByte_writeWord_other s.live s.sp _

end

/-! ## The statements -/

/-- Settles O22: each row of the table is the shared jump with its condition, which has one end per case. -/
theorem jumpsFollowTheTruthTable : Obligations.JumpsFollowTheTruthTable := by
  intro s target i first holds hrow
  rw [jumpTable_eq_map, List.mem_map] at hrow
  obtain ⟨k, -, hk⟩ := hrow
  cases hk
  rw [exec_decodeJump]
  refine ⟨encodeFirst_decodeJump _ _, encodeSecond_decodeJump _ _, fun hpc => ?noOperand,
    fun hpc hk ht => ?targetOut, fun hpc hk ht => ?taken, fun hpc hk => ?notTaken⟩
  case noOperand => rw [State.jump_of_no_operand hpc]
  case targetOut => rw [State.jump_of_target_gt hpc hk ht]
  case taken => exact ⟨_, congrArg _ (State.jump_of_taken hpc hk ht), .setPc _, BitVec.sub_add_cancel _ _⟩
  case notTaken => exact ⟨_, congrArg _ (State.jump_of_not_holds hpc hk), .complete, rfl⟩

/-- Settles O23: each row of the table is the shared call with its condition, which has one end per case. -/
theorem callsPushTheReturnAddress : Obligations.CallsPushTheReturnAddress := by
  intro s target i first holds hrow
  rw [callTable_eq_map, List.mem_map] at hrow
  obtain ⟨k, -, hk⟩ := hrow
  cases hk
  rw [exec_decodeCall]
  refine ⟨encodeFirst_decodeCall _ _, encodeSecond_decodeCall _ _, fun hpc => ?noOperand, fun hpc hk hsp => ?noRoom,
    fun hpc hk hpos hlt ht => ?targetOut, fun hpc hk hpos hlt ht => ?taken, fun hpc hk => ?notTaken⟩
  case noOperand => rw [State.call_of_no_operand hpc]
  case noRoom => rw [State.call_of_no_room hpc hk hsp]
  case targetOut => rw [State.call_of_target_gt hpc hk hpos hlt ht]
  case taken =>
    have hreturn : ((s.afterCall target).readWord s.sp).toNat = s.pc.toNat + 2 := by
      rw [State.readWord_afterCall_same, State.toNat_returnAddress hpc]
    have hsp : (s.sp - 1#16).toNat + 1 = s.sp.toNat := by bv_omega
    exact ⟨_, congrArg _ (State.call_of_taken hpc hk hpos hlt ht), rfl, BitVec.sub_add_cancel _ _, hreturn,
      s.keepsMemoryBut_afterCall target, hsp, fun _ => rfl, rfl, rfl, ⟨rfl, rfl, rfl, rfl, rfl⟩⟩
  case notTaken => exact ⟨_, congrArg _ (State.call_of_not_holds hpc hk), .complete, rfl⟩

/-- Settles O24: the operand check decides between the two faults, for jump and call alike. -/
theorem reservedConditionRaises : Obligations.ReservedConditionRaises := by
  refine fun s target => ⟨rfl, rfl, fun hpc => ?operand, fun hpc => ?noOperand⟩
  case operand =>
    have h : s.reservedCondition = s.faultedWith .invalidCondition := if_pos ((operandOk_iff _).mpr hpc)
    exact ⟨congrArg _ h, congrArg _ h⟩
  case noOperand =>
    have h : s.reservedCondition = s.faultedWith .operandOutOfRange := if_neg (not_operandOk hpc)
    exact ⟨congrArg _ h, congrArg _ h⟩

/-- Settles O25: SP and the stacked word decide between the return and the two faults. -/
theorem rtsReturnsOrFaults : Obligations.RtsReturnsOrFaults := by
  refine fun s => ⟨rfl, fun hsp hret => ?returns, exec_rts_of_sp_ge, exec_rts_of_target_gt⟩
  have hsp_up : (s.sp + 1#16).toNat = s.sp.toNat + 1 := by bv_omega
  exact ⟨_, exec_rts_of_bounds hsp hret, rfl, BitVec.sub_add_cancel _ _, hsp_up, fun _ => rfl, rfl, fun _ => rfl, rfl,
    ⟨rfl, rfl, rfl, rfl, rfl⟩⟩

/-! ## A call and the return from it (41_control_flow.md R156) -/

/-- A run goes on from the state that its first step answers. -/
theorem run_succ {M : Host.Core} {s t : M.State} (k : Nat) (h : M.step s = .next t) :
    M.run (k + 1) s = M.run k t := by
  rw [Host.Core.run, h]

theorem run_two {s t u : State} (hs : step s = .next t) (ht : step t = .next u) :
    Host.Core.run Sys2Proof.core 2 s = .next u :=
  (run_succ (M := Sys2Proof.core) 1 hs).trans (run_succ (M := Sys2Proof.core) 0 ht)

/-- A word with the opcode of rts is fetched as rts (30_encoding.md R57, R59). -/
theorem State.fetch_of_opcode_rts {s : State} (hpc : s.pc.toNat < 0x7FFF)
    (hop : opcodeField (s.readWord s.pc) = 4#6) : s.fetch = some .rts := by
  rw [State.fetch_eq hpc, decodeWord, hop]
  rfl

/-- The step at a word of rts, within the bounds of the return (41_control_flow.md R154; 44_execution_engine.md
R211). -/
theorem step_of_opcode_rts {s : State} (hpc : s.pc.toNat < 0x7FFF) (hop : opcodeField (s.readWord s.pc) = 4#6)
    (hsp : s.sp.toNat < 0x7FFE) (hret : (s.readWord (s.sp + 1#16)).toNat ≤ 0x7FFF) :
    step s = .next (s.afterRts.retire 1) :=
  step_of_fetch_some hpc (State.fetch_of_opcode_rts hpc hop) (exec_rts_of_bounds hsp hret)

/-- The step at an rts brings PC to the word above SP: the engine's addition undoes the routine's subtraction
(10_state.md R15). -/
theorem State.pc_retire_afterRts (s : State) : (s.afterRts.retire 1).pc = s.readWord (s.sp + 1#16) :=
  BitVec.sub_add_cancel _ _

/-- The step at a fetched call that is always taken, within its bounds (41_control_flow.md R138, R139). -/
theorem step_of_fetch_call {s : State} {target : Word} (hpc : s.pc.toNat + 1 < 0x7FFF)
    (hfetch : s.fetch = some (.call target)) (hpos : 0 < s.sp.toNat) (hlt : s.sp.toNat < 0x8000)
    (ht : target.toNat ≤ 0x7FFF) : step s = .next ((s.afterCall target).retire 2) :=
  step_of_fetch_some (by omega) hfetch
    (congrArg Host.Outcome.next (State.call_of_taken (k := .always) hpc rfl hpos hlt ht))

/-- Settles O26: the call leaves the return address above SP, which is where the rts at the target reads it. -/
theorem callThenRtsComesBack : Obligations.CallThenRtsComesBack := by
  intro s target hroom hfetch hpos hlt htarget hop hne
  have hcall := step_of_fetch_call hroom hfetch hpos (by omega) htarget.le
  generalize ht : (s.afterCall target).retire 2 = t at hcall
  have hpc : t.pc = target := by
    rw [← ht]
    exact BitVec.sub_add_cancel _ _
  have hsp : t.sp = s.sp - 1#16 := by rw [← ht]; rfl
  have hsp_up : t.sp + 1#16 = s.sp := by rw [hsp, BitVec.sub_add_cancel]
  have hword : t.readWord target = s.readWord target := by
    rw [← ht]
    exact State.readWord_afterCall_other hne.symm target
  have hreturn : t.readWord (t.sp + 1#16) = s.returnAddress := by
    rw [hsp_up, ← ht]
    exact s.readWord_afterCall_same target
  have haddr := State.toNat_returnAddress hroom
  have hrts : step t = .next (t.afterRts.retire 1) :=
    step_of_opcode_rts (hpc ▸ htarget) (by rw [hpc, hword, hop]) (by rw [hsp]; bv_omega) (by rw [hreturn]; omega)
  refine ⟨_, run_two hcall hrts, ?pc, hsp_up, ?count, rfl, ?regs, ?flags, ?memory⟩
  case pc => rw [State.pc_retire_afterRts, hreturn, haddr]
  case count => rw [← ht]; rfl
  case regs => rw [← ht]; exact fun _ => rfl
  case flags => rw [← ht]; rfl
  case memory => rw [← ht]; exact s.keepsMemoryBut_afterCall target

end Machine
end Sys2Proof
end

section
/-! The memory and stack unit (42_memory_stack.md): how a push, a pop, a load and a store end in each case of their
checks, what a write of a word leaves, and the statements on them. -/

namespace Sys2Proof

open Machine

/-- Formats F1R and F1W. -/
theorem encodeF1_eq (op : BitVec 6) (rx : RegIdx) : encodeF1 op rx = (op ++ 0#10) ||| at7 rx := by
  unfold encodeF1 at7; ext i hi; grind

namespace Machine

section
variable {s : State}

/-! ## The ends of a push and of a pop (42_memory_stack.md R171 to R174) -/

theorem State.push_of_no_room (v : Word) (hsp : s.sp.toNat = 0 ∨ 0x8000 ≤ s.sp.toNat) :
    s.push v = s.faultedWith .invalidStackPointer := by
  have hpush : ¬ pushOk s.sp = true := by
    rw [pushOk_iff]
    omega
  exact if_neg hpush

theorem not_popOk {sp : Word} (h : 0x7FFF ≤ sp.toNat) : ¬ popOk sp = true :=
  mt (popOk_iff sp).mp (Nat.not_lt.mpr h)

theorem exec_popRx_of_bound (h : s.sp.toNat < 0x7FFF) (rx : RegIdx) :
    exec (.popRx rx) s = .next ((s.setSp (s.sp + 1#16)).setReg rx s.poppedWord).complete :=
  congrArg Host.Outcome.next (if_pos ((popOk_iff _).mpr h))

theorem exec_popRx_of_sp_ge (h : 0x7FFF ≤ s.sp.toNat) (rx : RegIdx) :
    exec (.popRx rx) s = .next (s.faultedWith .invalidStackPointer) :=
  congrArg Host.Outcome.next (if_neg (not_popOk h))

theorem exec_popFr_of_sp_ge (h : 0x7FFF ≤ s.sp.toNat) :
    exec .popFr s = .next (s.faultedWith .invalidStackPointer) :=
  congrArg Host.Outcome.next (if_neg (not_popOk h))

/-! ## The ends of a load and of a store (42_memory_stack.md R175) -/

theorem not_dataOk {a : Word} (h : 0x7FFF ≤ a.toNat) : ¬ dataOk a = true :=
  mt (dataOk_iff a).mp (Nat.not_lt.mpr h)

theorem State.loadFrom_of_bound (rx : RegIdx) {a : Word} (ha : a.toNat < 0x7FFF) :
    s.loadFrom rx a = (s.setReg rx (s.readWord a)).complete :=
  if_pos ((dataOk_iff a).mpr ha)

theorem State.loadFrom_of_ge (rx : RegIdx) {a : Word} (ha : 0x7FFF ≤ a.toNat) :
    s.loadFrom rx a = s.faultedWith .invalidAddress :=
  if_neg (not_dataOk ha)

theorem State.storeTo_of_bound {a : Word} (v : Word) (ha : a.toNat < 0x7FFF) :
    s.storeTo a v = (s.writeWord a v).complete :=
  if_pos ((dataOk_iff a).mpr ha)

theorem State.storeTo_of_ge {a : Word} (v : Word) (ha : 0x7FFF ≤ a.toNat) :
    s.storeTo a v = s.faultedWith .invalidAddress :=
  if_neg (not_dataOk ha)

/-! ## The operand check before a load or a store (42_memory_stack.md R176 to R178; 60_exceptions.md R265) -/

theorem exec_load_of_operand (hpc : s.pc.toNat + 1 < 0x7FFF) (rx : RegIdx) (addr : Word) :
    exec (.load rx addr) s = .next (s.loadFrom rx addr) :=
  congrArg Host.Outcome.next (if_pos ((operandOk_iff _).mpr hpc))

theorem exec_load_of_no_operand (hpc : 0x7FFF ≤ s.pc.toNat + 1) (rx : RegIdx) (addr : Word) :
    exec (.load rx addr) s = .next (s.faultedWith .operandOutOfRange) :=
  congrArg Host.Outcome.next (if_neg (not_operandOk hpc))

theorem exec_store_of_operand (hpc : s.pc.toNat + 1 < 0x7FFF) (rx : RegIdx) (addr : Word) :
    exec (.store rx addr) s = .next (s.storeTo addr (s.reg rx)) :=
  congrArg Host.Outcome.next (if_pos ((operandOk_iff _).mpr hpc))

theorem exec_store_of_no_operand (hpc : 0x7FFF ≤ s.pc.toNat + 1) (rx : RegIdx) (addr : Word) :
    exec (.store rx addr) s = .next (s.faultedWith .operandOutOfRange) :=
  congrArg Host.Outcome.next (if_neg (not_operandOk hpc))

theorem exec_loadn_of_operand (hpc : s.pc.toNat + 1 < 0x7FFF) (rx : RegIdx) (imm : Word) :
    exec (.loadn rx imm) s = .next (s.setReg rx imm).complete :=
  congrArg Host.Outcome.next (if_pos ((operandOk_iff _).mpr hpc))

theorem exec_loadn_of_no_operand (hpc : 0x7FFF ≤ s.pc.toNat + 1) (rx : RegIdx) (imm : Word) :
    exec (.loadn rx imm) s = .next (s.faultedWith .operandOutOfRange) :=
  congrArg Host.Outcome.next (if_neg (not_operandOk hpc))

end

/-! ## The frames of a push and of a store -/

/-- What a push of `v` that completes does, and all that it leaves (42_memory_stack.md R171). -/
def PushesWord (v : Word) (s t : State) : Prop :=
  t.outcome = .cont ∧ t.readWord s.sp = v ∧ KeepsMemoryBut s.sp s t ∧ t.sp.toNat + 1 = s.sp.toNat ∧ t.pc = s.pc ∧
    KeepsRegs s t ∧ t.flags = s.flags ∧ t.hooks = s.hooks ∧ KeepsHostSide s t

/-- What a store of `v` at `a` that completes does, and all that it leaves (42_memory_stack.md R175). -/
def StoresWord (a v : Word) (s t : State) : Prop :=
  t.outcome = .cont ∧ t.readWord a = v ∧ KeepsMemoryBut a s t ∧ KeepsRegs s t ∧ t.sp = s.sp ∧ t.pc = s.pc ∧
    t.flags = s.flags ∧ t.hooks = s.hooks ∧ KeepsHostSide s t

/-- A write of one word leaves every byte outside it. -/
theorem State.keepsMemoryBut_writeWord (s : State) (a v : Word) : KeepsMemoryBut a s (s.writeWord a v) :=
  Memory.readByte_writeWord_other s.live a v

theorem pushesWord_push {s : State} (v : Word) (hpos : 0 < s.sp.toNat) (hlt : s.sp.toNat < 0x8000) :
    PushesWord v s (s.push v) := by
  have hsp : (s.sp - 1#16).toNat + 1 = s.sp.toNat := by bv_omega
  rw [State.push_of_bounds v hpos hlt]
  exact ⟨rfl, s.readWord_writeWord_same _ _, s.keepsMemoryBut_writeWord _ _, hsp, rfl, fun _ => rfl, rfl, rfl,
    ⟨rfl, rfl, rfl, rfl, rfl⟩⟩

theorem storesWord_storeTo {s : State} {a : Word} (v : Word) (ha : a.toNat < 0x7FFF) :
    StoresWord a v s (s.storeTo a v) := by
  rw [State.storeTo_of_bound v ha]
  exact ⟨rfl, s.readWord_writeWord_same _ _, s.keepsMemoryBut_writeWord _ _, fun _ => rfl, rfl, rfl, rfl, rfl,
    ⟨rfl, rfl, rfl, rfl, rfl⟩⟩

/-! ## The statements -/

/-- Settles O27: both are the shared push, of the register and of the flag image. -/
theorem pushWritesBelowAndDecrements : Obligations.PushWritesBelowAndDecrements := fun _ _ =>
  ⟨encodeFRB_eq _ _ _, rfl,
    fun hpos hlt => ⟨⟨_, rfl, pushesWord_push _ hpos hlt⟩, ⟨_, rfl, pushesWord_push _ hpos hlt⟩⟩,
    fun hsp => ⟨congrArg _ (State.push_of_no_room _ hsp), congrArg _ (State.push_of_no_room _ hsp)⟩⟩

/-- Settles O28: the check on SP decides between the read of the word above SP and the fault. -/
theorem popReadsAboveAndIncrements : Obligations.PopReadsAboveAndIncrements := by
  refine fun s rx => ⟨encodeFRB_eq _ _ _, rfl, fun hsp => ?inRange,
    fun hsp => ⟨exec_popRx_of_sp_ge hsp rx, exec_popFr_of_sp_ge hsp⟩⟩
  have hsp_up : (s.sp + 1#16).toNat = s.sp.toNat + 1 := by bv_omega
  refine ⟨⟨_, exec_popRx_of_bound hsp rx, rfl, ?_⟩, ⟨_, exec_popFr_of_bound hsp, rfl, rfl, ?_⟩⟩
  · exact ⟨State.reg_setReg_same _ rx _, fun _ h => State.reg_setReg_other _ _ h, hsp_up, rfl, rfl, fun _ => rfl, rfl,
      ⟨rfl, rfl, rfl, rfl, rfl⟩⟩
  · exact ⟨fun _ => rfl, hsp_up, rfl, fun _ => rfl, rfl, ⟨rfl, rfl, rfl, rfl, rfl⟩⟩

/-- Settles O29: the push leaves SP one below its word, which is where the pop reads it. -/
theorem pushThenPopRestores : Obligations.PushThenPopRestores := by
  intro s rx ry hpos hlt
  have hpush : exec (.pushRx rx) s = .next _ := congrArg Host.Outcome.next (s.push_of_bounds _ hpos hlt)
  have hsp : (s.sp - 1#16).toNat < 0x7FFF := by bv_omega
  refine ⟨_, _, hpush, exec_popRx_of_bound hsp ry, ?value, BitVec.sub_add_cancel _ _,
    fun _ h => State.reg_setReg_other _ _ h, rfl⟩
  rw [State.complete_reg, State.reg_setReg_same, State.poppedWord_push]

/-- Settles O31: load, after its operand check, and loadi are the shared load from their address. -/
theorem loadsReadOneWord : Obligations.LoadsReadOneWord := by
  refine fun s rx ry addr => ⟨encodeF1_eq _ _, rfl, encodeF2R_eq _ _ _, fun hpc ha => ?load, fun hpc ha => ?loadOut,
    fun hpc => exec_load_of_no_operand hpc rx addr, fun ha => ?loadi, fun ha => ?loadiOut⟩
  case load =>
    have hload := (exec_load_of_operand hpc rx addr).trans (congrArg _ (State.loadFrom_of_bound rx ha))
    exact ⟨_, hload, .setReg rx _, State.reg_setReg_same s rx _, rfl⟩
  case loadOut => rw [exec_load_of_operand hpc, State.loadFrom_of_ge rx ha]
  case loadi =>
    have hloadi : exec (.loadi rx ry) s = .next _ := congrArg Host.Outcome.next (State.loadFrom_of_bound rx ha)
    exact ⟨_, hloadi, .setReg rx _, State.reg_setReg_same s rx _, rfl⟩
  case loadiOut => exact congrArg _ (State.loadFrom_of_ge rx ha)

/-- Settles O32: the operand check decides between the copy of the operand word and the fault. -/
theorem loadnTakesTheRawWord : Obligations.LoadnTakesTheRawWord := fun s rx imm =>
  ⟨encodeF1_eq _ _, rfl,
    fun hpc => ⟨_, exec_loadn_of_operand hpc rx imm, .setReg rx imm, State.reg_setReg_same s rx imm, rfl⟩,
    fun hpc => exec_loadn_of_no_operand hpc rx imm⟩

/-- Settles O33: store, after its operand check, and storei are the shared store to their address. -/
theorem storesWriteOneWord : Obligations.StoresWriteOneWord := by
  refine fun s rx ry addr => ⟨encodeF1_eq _ _, rfl, encodeF2R_eq _ _ _, fun hpc ha => ?store, fun hpc ha => ?storeOut,
    fun hpc => exec_store_of_no_operand hpc rx addr, fun ha => ?storei, fun ha => ?storeiOut⟩
  case store => exact ⟨_, exec_store_of_operand hpc rx addr, storesWord_storeTo _ ha⟩
  case storeOut => rw [exec_store_of_operand hpc, State.storeTo_of_ge _ ha]
  case storei => exact ⟨_, rfl, storesWord_storeTo _ ha⟩
  case storeiOut => exact congrArg _ (State.storeTo_of_ge _ ha)

end Machine
end Sys2Proof
end

section
/-! The I/O system (43_io_system.md): what a call of a hook leads to by its answer, how the two stopping words and
the words of ICMC_EXTRAS are decoded and stepped over, and the statements on them. -/

namespace Sys2Proof

/-! ## The words with no operand (30_encoding.md R57) -/

section
variable {extras : Bool} {w : Word} (imm : Word)

theorem decodeWord_of_opcode_halt (hop : opcodeField w = 15#6) : decodeWord extras w imm = .ok .halt := by
  rw [decodeWord, hop]
  rfl

theorem decodeWord_of_opcode_breakp (hop : opcodeField w = 14#6) : decodeWord extras w imm = .ok .breakp := by
  rw [decodeWord, hop]
  rfl

theorem decodeWord_of_opcode_nop (hop : opcodeField w = 0#6) : decodeWord true w imm = .ok .nop := by
  rw [decodeWord, hop]
  rfl

/-- Bit 9 tells setc from clearc (43_io_system.md R197, R198). -/
theorem decodeWord_of_opcode_carry (hop : opcodeField w = 8#6) :
    decodeWord true w imm = .ok (if w.getLsbD 9 then .setc else .clearc) := by
  rw [decodeWord, hop]
  rfl

/-- Without ICMC_EXTRAS the table has neither entry (43_io_system.md R196 to R198). -/
theorem decodeWord_of_opcode_extras (hop : opcodeField w = 0#6 ∨ opcodeField w = 8#6) :
    decodeWord false w imm = .error (.unknownInstruction (opcodeField w)) := by
  have hnone : opcodeSize false (opcodeField w).toNat = none := by
    rcases hop with hop | hop <;> rw [hop] <;> rfl
  exact decodeWord_of_opcodeSize_none imm hnone

end

namespace Machine

section
variable {s : State}

/-! ## The answers of the hooks (43_io_system.md R190 to R193) -/

theorem exec_inchar_of_key {v : Byte} (h : s.hooks.nextInput = .key v) (rx : RegIdx) :
    exec (.inchar rx) s = .next (s.callInput.setReg rx (v.setWidth 16)).complete :=
  congrArg (fun a => Host.Outcome.next (s.callInput.takeKey rx a)) h

theorem exec_inchar_of_fault (h : s.hooks.nextInput = .fault) (rx : RegIdx) :
    exec (.inchar rx) s = .next (s.callInput.raise .ioFaultInput) :=
  congrArg (fun a => Host.Outcome.next (s.callInput.takeKey rx a)) h

theorem exec_outchar_of_ok (h : s.hooks.nextOutput = .ok) (rx ry : RegIdx) :
    exec (.outchar rx ry) s = .next (s.callOutput (s.reg rx) (s.reg ry)).complete :=
  congrArg (fun a => Host.Outcome.next ((s.callOutput (s.reg rx) (s.reg ry)).takeAnswer a)) h

theorem exec_outchar_of_fault (h : s.hooks.nextOutput = .fault) (rx ry : RegIdx) :
    exec (.outchar rx ry) s = .next ((s.callOutput (s.reg rx) (s.reg ry)).raise .ioFaultOutput) :=
  congrArg (fun a => Host.Outcome.next ((s.callOutput (s.reg rx) (s.reg ry)).takeAnswer a)) h

/-! ## The two stops (43_io_system.md R194, R195) -/

/-- What a stop leaves: all but PC and the answer. -/
def KeepsAllButPc (s t : State) : Prop :=
  KeepsRegs s t ∧ t.sp = s.sp ∧ t.flags = s.flags ∧ KeepsMemory s t ∧ t.hooks = s.hooks ∧ KeepsHostSide s t

theorem keepsAllButPc_setPc_stop (v : Word) (r : StopReason) : KeepsAllButPc s ((s.setPc v).stop r) :=
  ⟨fun _ => rfl, rfl, rfl, fun _ => rfl, rfl, ⟨rfl, rfl, rfl, rfl, rfl⟩⟩

/-- A stop that PC passes. -/
theorem keepsAllButPc_stop (r : StopReason) : KeepsAllButPc s (s.stop r) :=
  keepsAllButPc_setPc_stop s.pc r

/-- A stop that PC stays on. -/
theorem keepsAllButPc_stayOnWord_stop (r : StopReason) : KeepsAllButPc s (s.stayOnWord.stop r) :=
  keepsAllButPc_setPc_stop (s.pc - 1#16) r

/-- The next address after the PC that `stayOnWord` leaves is the word's own. -/
theorem State.stayOnWord_pc_add_one : s.stayOnWord.pc + 1#16 = s.pc :=
  BitVec.sub_add_cancel _ _

theorem exec_breakp_of_advances (h : s.params.breakpAdvances = true) :
    exec .breakp s = .next (s.stop .breakpoint) :=
  congrArg (fun u : State => Host.Outcome.next (u.stop .breakpoint)) (if_pos h)

theorem exec_breakp_of_stays (h : s.params.breakpAdvances = false) :
    exec .breakp s = .next (s.stayOnWord.stop .breakpoint) :=
  congrArg (fun u : State => Host.Outcome.next (u.stop .breakpoint)) (if_neg (Bool.eq_false_iff.mp h))

/-- A step fetches what the word at PC stands for (44_execution_engine.md R210). -/
theorem State.fetch_of_decodeWord {i : Instr} (hpc : s.pc.toNat < 0x7FFF)
    (h : decodeWord s.params.icmcExtras (s.readWord s.pc) (s.readWord (s.pc + 1#16)) = .ok i) :
    s.fetch = some i := by
  rw [State.fetch_eq hpc, h]
  rfl

theorem step_of_opcode_halt (hpc : s.pc.toNat < 0x7FFF) (hop : opcodeField (s.readWord s.pc) = 15#6) :
    step s = .next ((s.stayOnWord.stop .halt).retire 1) :=
  step_of_fetch_some hpc (State.fetch_of_decodeWord hpc (decodeWord_of_opcode_halt _ hop)) rfl

/-- The step at a word of breakp, by what its routine answers. -/
theorem step_of_opcode_breakp {u : State} (hpc : s.pc.toNat < 0x7FFF)
    (hop : opcodeField (s.readWord s.pc) = 14#6) (hu : exec .breakp s = .next u) :
    step s = .next (u.retire 1) :=
  step_of_fetch_some hpc (State.fetch_of_decodeWord hpc (decodeWord_of_opcode_breakp _ hop)) hu

end

/-! ## The statements -/

/-- Settles O35: the hook's answer decides between the write of the key and the fault, both after the one call. -/
theorem incharTakesTheKeyOrFaults : Obligations.IncharTakesTheKeyOrFaults := by
  refine fun s rx => ⟨encodeF1_eq _ _, fun v hkey => ?key, fun hfault => ?fault⟩
  case key =>
    have hframe : OnlyRegister rx s.callInput (s.callInput.setReg rx (v.setWidth 16)).complete := .setReg rx _
    have hvalue : ((s.callInput.setReg rx (v.setWidth 16)).reg rx).toNat = v.toNat := by
      rw [State.reg_setReg_same, BitVec.toNat_setWidth_of_le (by decide)]
    exact ⟨_, exec_inchar_of_key hkey rx, hframe.outcome, hvalue, hframe.regs, hframe.sp,
      hframe.pc, rfl, hframe.memory, hframe.hooks, ⟨rfl, rfl, rfl, rfl, rfl⟩⟩
  case fault =>
    exact ⟨_, exec_inchar_of_fault hfault rx, rfl, fun _ => rfl, rfl, rfl, rfl, fun _ => rfl, rfl,
      ⟨rfl, rfl, rfl, rfl, rfl⟩⟩

/-- Settles O36: the call that makes the event comes before either use of the hook's answer. -/
theorem outcharMakesTheEvent : Obligations.OutcharMakesTheEvent := by
  refine fun s rx ry => ⟨encodeF2R_eq _ _ _, fun hok => ?ok, fun hfault => ?fault⟩
  case ok => exact ⟨_, exec_outchar_of_ok hok rx ry, .complete, rfl, rfl, rfl⟩
  case fault =>
    exact ⟨_, exec_outchar_of_fault hfault rx ry, rfl, fun _ => rfl, rfl, rfl, rfl, fun _ => rfl, rfl, rfl,
      ⟨rfl, rfl, rfl, rfl, rfl⟩⟩

/-- Settles O37: the engine's addition brings PC back to the word that the routine stayed on. -/
theorem haltStaysOnItsWord : Obligations.HaltStaysOnItsWord := fun _ =>
  ⟨rfl, ⟨_, rfl, rfl, State.stayOnWord_pc_add_one, keepsAllButPc_stayOnWord_stop .halt⟩,
    fun hpc hop => ⟨_, step_of_opcode_halt hpc hop, rfl, State.stayOnWord_pc_add_one, rfl⟩⟩

/-- Settles O38: by BREAKP_ADVANCES, a stop that PC passes or one that it stays on. -/
theorem breakpStopsAndMayAdvance : Obligations.BreakpStopsAndMayAdvance := by
  refine fun s => ⟨rfl, ?_⟩
  cases hadv : s.params.breakpAdvances with
  | true =>
    have hexec := exec_breakp_of_advances hadv
    exact ⟨⟨_, hexec, rfl, fun _ => rfl, nofun, keepsAllButPc_stop .breakpoint⟩,
      fun hpc hop => ⟨_, step_of_opcode_breakp hpc hop hexec, rfl, rfl⟩⟩
  | false =>
    have hexec := exec_breakp_of_stays hadv
    exact ⟨⟨_, hexec, rfl, nofun, fun _ => State.stayOnWord_pc_add_one, keepsAllButPc_stayOnWord_stop .breakpoint⟩,
      fun hpc hop => ⟨_, step_of_opcode_breakp hpc hop hexec, rfl, State.stayOnWord_pc_add_one⟩⟩

/-- Settles O39: the table's two entries under ICMC_EXTRAS, and three routines that write flags alone. -/
theorem extrasWriteCarryOrNothing : Obligations.ExtrasWriteCarryOrNothing := fun s imm =>
  ⟨rfl, rfl, rfl, fun _ => decodeWord_of_opcode_extras imm, fun _ => decodeWord_of_opcode_nop imm,
    fun _ => decodeWord_of_opcode_carry imm, ⟨_, rfl, .setFlags s.flags, rfl⟩, ⟨_, rfl, .setFlags _, rfl⟩,
    ⟨_, rfl, .setFlags _, rfl⟩⟩

end Machine
end Sys2Proof
end

section
/-! The execution engine (44_execution_engine.md): the two faults of the step itself, where every step leaves PC and
the counter, what the host's operations do to the memories, and how a run ends. -/

namespace Sys2Proof.Machine

/-! ## The two faults of the step itself (44_execution_engine.md R213, R214) -/

/-- An opcode with no table entry fetches no instruction. -/
theorem State.fetch_of_opcodeSize_none {s : State} (hpc : s.pc.toNat < 0x7FFF)
    (h : opcodeSize s.params.icmcExtras (opcodeField (s.readWord s.pc)).toNat = none) : s.fetch = none := by
  rw [State.fetch_eq hpc, decodeWord_of_opcodeSize_none _ h]
  rfl

/-- Settles O5: the step faults before it fetches. -/
theorem stepPastTheLastAddressFaults : Obligations.StepPastTheLastAddressFaults := fun _ hpc =>
  step_of_pc_ge (Nat.not_lt.mpr hpc)

/-- Settles O6: nothing is fetched, so no routine runs. -/
theorem stepOnUnknownOpcodeFaults : Obligations.StepOnUnknownOpcodeFaults := fun _ hpc hop =>
  step_of_fetch_none hpc (State.fetch_of_opcodeSize_none hpc hop)

/-! ## The counter (44_execution_engine.md R215) -/

/-- No routine writes the counter. -/
theorem Effect.keeps_instructionCount {i : Instr} {s t : State} (h : Effect i s t) :
    t.instructionCount = s.instructionCount := by
  induction h with
  | afterHook h t ht ih => exact ih
  | _ => rfl

/-- Settles O42: of the three things a step can do, only the engine's bookkeeping after a routine counts. -/
theorem counterCountsRoutines : Obligations.CounterCountsRoutines := by
  intro s t h
  obtain ⟨hpc, rfl⟩ | ⟨-, hf, rfl⟩ | ⟨hpc, i, u, hf, hu, rfl⟩ := step_cases h
  · simp [hpc]
  · simp [hf]
  · simp [hpc, hf, (exec_effect hu).keeps_instructionCount]

/-! ## Where a routine leaves PC: the routines that transfer no control -/

section
variable (s : State)

/-- PC is kept by an operation both of whose ends keep it. -/
theorem State.ite_pc {c : Prop} [Decidable c] {t u : State} (ht : t.pc = s.pc) (hu : u.pc = s.pc) :
    (if c then t else u).pc = s.pc := by
  split
  · exact ht
  · exact hu

@[simp] theorem State.clearDivZero_pc : s.clearDivZero.pc = s.pc := by
  obtain ⟨-, h⟩ | ⟨-, h⟩ := s.clearDivZero_cases <;> rw [h]
  rfl

@[simp] theorem State.push_pc (v : Word) : (s.push v).pc = s.pc := s.ite_pc rfl rfl

@[simp] theorem State.loadFrom_pc (rx : RegIdx) (a : Word) : (s.loadFrom rx a).pc = s.pc := s.ite_pc rfl rfl

@[simp] theorem State.storeTo_pc (a v : Word) : (s.storeTo a v).pc = s.pc := s.ite_pc rfl rfl

@[simp] theorem State.reservedCondition_pc : s.reservedCondition.pc = s.pc := s.ite_pc rfl rfl

@[simp] theorem State.takeKey_pc (rx : RegIdx) (a : Config.InputAnswer) : (s.takeKey rx a).pc = s.pc := by
  cases a <;> rfl

@[simp] theorem State.takeAnswer_pc (a : Config.OutputAnswer) : (s.takeAnswer a).pc = s.pc := by
  cases a <;> rfl

/-- A routine leaves PC to the engine, unless it is a jump, a call, rts, halt or breakp (10_state.md R15). -/
theorem exec_keeps_pc {i : Instr} (hjump : i.jumpParts = none) (hcall : i.callParts = none) (hrts : i ≠ .rts)
    (hhalt : i ≠ .halt) (hbreakp : i ≠ .breakp) : ∃ u, exec i s = .next u ∧ u.pc = s.pc := by
  cases i with
  | add | addc | sub | subc | mult | and | or | xor | inc | dec => exact ⟨_, rfl, s.writeAlu_pc _ _⟩
  | div => exact ⟨_, rfl, s.ite_pc rfl (State.clearDivZero_pc _)⟩
  | mod => exact ⟨_, rfl, s.ite_pc rfl (s.writeAlu_pc _ _)⟩
  | shiftl0 | shiftl1 | shiftr0 | shiftr1 | rotl | rotr => exact ⟨_, rfl, s.writeShift_pc _ _⟩
  | not | movRxRy | movRxSp | cmp | nop | setc | clearc => exact ⟨_, rfl, rfl⟩
  | movSpRx | popRx | popFr | loadn => exact ⟨_, rfl, s.ite_pc rfl rfl⟩
  | jcond15 | ccond15 => exact ⟨_, rfl, s.reservedCondition_pc⟩
  | pushRx | pushFr => exact ⟨_, rfl, s.push_pc _⟩
  | load => exact ⟨_, rfl, s.ite_pc (s.loadFrom_pc _ _) rfl⟩
  | store => exact ⟨_, rfl, s.ite_pc (s.storeTo_pc _ _) rfl⟩
  | loadi => exact ⟨_, rfl, s.loadFrom_pc _ _⟩
  | storei => exact ⟨_, rfl, s.storeTo_pc _ _⟩
  | inchar rx => exact ⟨_, rfl, s.callInput.takeKey_pc rx _⟩
  | outchar rx ry => exact ⟨_, rfl, (s.callOutput (s.reg rx) (s.reg ry)).takeAnswer_pc _⟩
  | jmp | jeq | jne | jz | jnz | jc | jnc | jgr | jle | jeg | jel | jov | jno | jdz | jn => cases hjump
  | call | ceq | cne | cz | cnz | cc | cnc | cgr | cle | ceg | cel | cov | cno | cdz | cn => cases hcall
  | rts => exact absurd rfl hrts
  | halt => exact absurd rfl hhalt
  | breakp => exact absurd rfl hbreakp

end

/-! ## Where the others leave PC, for the engine's addition (44_execution_engine.md R211) -/

/-- A routine that faults leaves PC where it was (60_exceptions.md R264). -/
theorem Effect.pc_of_fault {i : Instr} {s t : State} (h : Effect i s t) {f : FaultRecord}
    (hf : t.outcome = .fault f) : t.pc = s.pc := by
  induction h with
  | raises => rfl
  | afterHook h t ht ih => exact ih hf
  | _ => cases hf

/-- An instruction with the parts of a jump is the jump of that condition (41_control_flow.md R120). -/
theorem eq_decodeJump_of_jumpParts {i : Instr} {k : Cond} {target : Word} (h : i.jumpParts = some (k, target)) :
    i = decodeJump k.number target := by
  cases i with
  | jmp | jeq | jne | jz | jnz | jc | jnc | jgr | jle | jeg | jel | jov | jno | jdz | jn =>
    cases h
    rfl
  | _ => cases h

/-- An instruction with the parts of a call is the call of that condition (41_control_flow.md R120). -/
theorem eq_decodeCall_of_callParts {i : Instr} {k : Cond} {target : Word} (h : i.callParts = some (k, target)) :
    i = decodeCall k.number target := by
  cases i with
  | call | ceq | cne | cz | cnz | cc | cnc | cgr | cle | ceg | cel | cov | cno | cdz | cn =>
    cases h
    rfl
  | _ => cases h

/-- A jump that raises no fault: two words on is the target when it is taken, else the next instruction. -/
theorem State.jump_pc_add_two {s : State} {k : Cond} {target : Word} (hfree : (s.jump k target).faultFree) :
    (s.jump k target).pc + 2#16 = if k.holds s.flags then target else s.pc + 2#16 := by
  obtain ⟨-, h⟩ | ⟨-, hk, h⟩ | ⟨-, -, -, h⟩ | ⟨-, hk, -, h⟩ := s.jump_cases k target <;> rw [h] at hfree ⊢
  · exact absurd rfl (hfree _)
  · rw [hk]; rfl
  · exact absurd rfl (hfree _)
  · rw [hk]; exact BitVec.sub_add_cancel _ _

/-- A call that raises no fault: two words on is the target when it is taken, else the next instruction. -/
theorem State.call_pc_add_two {s : State} {k : Cond} {target : Word} (hfree : (s.call k target).faultFree) :
    (s.call k target).pc + 2#16 = if k.holds s.flags then target else s.pc + 2#16 := by
  obtain ⟨-, h⟩ | ⟨-, hk, h⟩ | ⟨-, -, -, h⟩ | ⟨-, -, -, -, h⟩ | ⟨-, hk, -, -, h⟩ := s.call_cases k target <;>
    rw [h] at hfree ⊢
  · exact absurd rfl (hfree _)
  · rw [hk]; rfl
  · exact absurd rfl (hfree _)
  · exact absurd rfl (hfree _)
  · rw [hk]; exact BitVec.sub_add_cancel _ _

section
variable {s t : State}

/-- The step that fetches an instruction is its routine and then the engine's bookkeeping. -/
theorem retire_of_step {i : Instr} {u : State} (hpc : s.pc.toNat < 0x7FFF) (hf : s.fetch = some i)
    (hu : exec i s = .next u) (h : step s = .next t) : t = u.retire i.size :=
  Host.Outcome.next.inj (h.symm.trans (step_of_fetch_some hpc hf hu))

/-- A taken jump or call goes to its target, one not taken past its two words. -/
theorem step_pc_of_parts {i : Instr} {k : Cond} {target : Word} (hpc : s.pc.toNat < 0x7FFF)
    (hf : s.fetch = some i) (hparts : i.jumpParts = some (k, target) ∨ i.callParts = some (k, target))
    (h : step s = .next t) (hfree : t.faultFree) : t.pc = if k.holds s.flags then target else s.pc + 2#16 := by
  rcases hparts with hjump | hcall
  · cases eq_decodeJump_of_jumpParts hjump
    cases retire_of_step hpc hf (exec_decodeJump k target s) h
    rw [State.retire_pc, size_decodeJump]
    exact State.jump_pc_add_two hfree
  · cases eq_decodeCall_of_callParts hcall
    cases retire_of_step hpc hf (exec_decodeCall k target s) h
    rw [State.retire_pc, size_decodeCall]
    exact State.call_pc_add_two hfree

/-- A return goes to the word above SP (41_control_flow.md R154). -/
theorem step_pc_of_rts (hpc : s.pc.toNat < 0x7FFF) (hf : s.fetch = some .rts) (h : step s = .next t)
    (hfree : t.faultFree) : t.pc = s.readWord (s.sp + 1#16) := by
  rcases Nat.lt_or_ge s.sp.toNat 0x7FFE with hsp | hsp
  · rcases Nat.lt_or_ge 0x7FFF (s.readWord (s.sp + 1#16)).toNat with hret | hret
    · cases retire_of_step hpc hf (exec_rts_of_target_gt hsp hret) h
      exact absurd rfl (hfree _)
    · cases retire_of_step hpc hf (exec_rts_of_bounds hsp hret) h
      exact s.pc_retire_afterRts
  · cases retire_of_step hpc hf (exec_rts_of_sp_ge hsp) h
    exact absurd rfl (hfree _)

/-- A breakpoint is passed under BREAKP_ADVANCES, else PC stays on it (43_io_system.md R195). -/
theorem step_pc_of_breakp (hpc : s.pc.toNat < 0x7FFF) (hf : s.fetch = some .breakp) (h : step s = .next t) :
    t.pc = if s.params.breakpAdvances then s.pc + 1#16 else s.pc := by
  cases hadv : s.params.breakpAdvances with
  | true =>
    cases retire_of_step hpc hf (exec_breakp_of_advances hadv) h
    rfl
  | false =>
    cases retire_of_step hpc hf (exec_breakp_of_stays hadv) h
    exact State.stayOnWord_pc_add_one

end

/-- Settles O41: the engine adds the size to the PC that the routine leaves, which is the instruction's own unless
the routine transfers control or stays on its word. -/
theorem netPcChangeOfEveryStep : Obligations.NetPcChangeOfEveryStep := by
  refine fun s t h => ⟨fun hpc => ?pcOut, fun hpc hf => ?unknown, fun i hpc hf => ⟨fun ⟨f, hfault⟩ => ?fault,
    fun hfree => ⟨fun hjump hcall hrts hhalt hbreakp => ?plain, fun k target hparts => ?transfer, ?rts, ?halt,
      ?breakp⟩⟩⟩
  case pcOut =>
    cases h.symm.trans (step_of_pc_ge (Nat.not_lt.mpr hpc))
    rfl
  case unknown =>
    cases h.symm.trans (step_of_fetch_none hpc hf)
    rfl
  case fault =>
    obtain ⟨u, hu, heffect⟩ := answersEffect i s
    cases retire_of_step hpc hf hu h
    rw [State.retire_pc, heffect.pc_of_fault hfault]
  case plain =>
    obtain ⟨u, hu, hkeeps⟩ := exec_keeps_pc s hjump hcall hrts hhalt hbreakp
    cases retire_of_step hpc hf hu h
    rw [State.retire_pc, hkeeps]
  case transfer => exact step_pc_of_parts hpc hf hparts h hfree
  case rts =>
    rintro rfl
    exact step_pc_of_rts hpc hf h hfree
  case halt =>
    rintro rfl
    cases retire_of_step hpc hf rfl h
    exact State.stayOnWord_pc_add_one
  case breakp =>
    rintro rfl
    exact step_pc_of_breakp hpc hf h

/-! ## The memories under the host's operations (10_state.md R25; 70_reset_and_hazards.md R284) -/

/-- An image that is accepted fills the baseline, and the rest is a reset (70_reset_and_hazards.md R284). -/
theorem State.loadImage_eq_ok {s t : State} {bytes : List Byte} (h : s.loadImage bytes = .ok t) :
    bytes.length = Config.imageBytes ∧ t = State.hostReset { s with baseline := imageMemory 0 bytes } := by
  unfold State.loadImage at h
  split at h
  case isTrue hlength => exact ⟨hlength, (Except.ok.inj h).symm⟩
  case isFalse => cases h

/-- No host edit writes the baseline, and none more of the live memory than one word that exists
(44_execution_engine.md R220). -/
theorem State.edit_memories {s t : State} {e : HostEdit} (h : s.edit e = .ok t) :
    t.baseline = s.baseline ∧
      (t.live = s.live ∨ ∃ a v : Word, a.toNat < Config.memWords ∧ t.live = s.live.writeWord a v) := by
  cases e with
  | writeMemory a v =>
    simp only [State.edit] at h
    split at h
    case isTrue ha =>
      cases h
      exact ⟨rfl, .inr ⟨a, v, ha, rfl⟩⟩
    case isFalse => cases h
  | writeRegister | writeSp | writePc | writeFlag | cancel =>
    cases h
    exact ⟨rfl, .inl rfl⟩

/-- Settles O51: a reset copies the baseline, an image has at most one byte per byte of memory, and an edit writes
inside it. -/
theorem hostOperationsKeepMemoryCanonical : Obligations.HostOperationsKeepMemoryCanonical := by
  refine fun s hlive hbaseline => ⟨⟨hbaseline, hbaseline⟩, fun bytes t h => ?image, fun e t h => ?edit⟩
  case image =>
    obtain ⟨hlength, rfl⟩ := State.loadImage_eq_ok h
    have himage : Memory.wf (imageMemory 0 bytes) := imageMemory_wf (by rw [hlength]; decide)
    exact ⟨himage, himage⟩
  case edit =>
    obtain ⟨hkept, hsame | ⟨a, v, ha, hwritten⟩⟩ := State.edit_memories h
    · exact ⟨hsame ▸ hlive, hkept⟩
    · exact ⟨hwritten ▸ Memory.writeWord_wf hlive ha v, hkept⟩

/-! ## The end of a run (44_execution_engine.md R217, R224) -/

/-- The ways in which a run can end, each with the state it leaves. -/
inductive EndOfRun : RunEnd → State → Prop where
  /-- The last step answered a stop. -/
  | stopped (s : State) (r : StopReason) (h : s.outcome = .stop r) : EndOfRun (.stopped r) (s.endRun .halted)
  /-- The last step answered a fault. -/
  | faulted (s : State) (f : FaultRecord) (h : s.outcome = .fault f) : EndOfRun (.faulted f) (s.endRun .faulted)
  /-- The host had cleared `running` at a boundary. -/
  | cancelled (s : State) (h : s.running = false) : EndOfRun .cancelled { s with status := .idle }

section
variable {s t : State} {es : List HostEdit} (rest : List (List HostEdit))

theorem State.runLoop_of_not_running (hrun : (s.editAll es).running = false) :
    s.runLoop (es :: rest) = .ended .cancelled { s.editAll es with status := .idle } := by
  simp [State.runLoop, hrun]

variable (hrun : (s.editAll es).running = true) (hstep : step (s.editAll es) = .next t)
include hrun hstep

theorem State.runLoop_of_cont (h : t.outcome = .cont) : s.runLoop (es :: rest) = t.runLoop rest := by
  simp [State.runLoop, hrun, hstep, h]

theorem State.runLoop_of_stop {r : StopReason} (h : t.outcome = .stop r) :
    s.runLoop (es :: rest) = .ended (.stopped r) (t.endRun .halted) := by
  simp [State.runLoop, hrun, hstep, h]

theorem State.runLoop_of_fault {f : FaultRecord} (h : t.outcome = .fault f) :
    s.runLoop (es :: rest) = .ended (.faulted f) (t.endRun .faulted) := by
  simp [State.runLoop, hrun, hstep, h]

end

/-- The loop ends at the first boundary that finds `running` cleared or whose step does not continue. -/
theorem endOfRun_of_runLoop {boundaries : List (List HostEdit)} {s t : State} {e : RunEnd}
    (h : s.runLoop boundaries = .ended e t) : EndOfRun e t := by
  induction boundaries generalizing s with
  | nil => cases h
  | cons es rest ih =>
    cases hrun : (s.editAll es).running with
    | false =>
      cases (State.runLoop_of_not_running rest hrun).symm.trans h
      exact .cancelled _ hrun
    | true =>
      obtain ⟨u, hstep⟩ := everyStepAnswersANextState (s.editAll es)
      cases ho : u.outcome with
      | cont => exact ih ((State.runLoop_of_cont rest hrun hstep ho).symm.trans h)
      | stop r =>
        cases (State.runLoop_of_stop rest hrun hstep ho).symm.trans h
        exact .stopped u r ho
      | fault f =>
        cases (State.runLoop_of_fault rest hrun hstep ho).symm.trans h
        exact .faulted u f ho

/-- Settles O59: what each way of ending leaves of `running`, the status and the last answer. -/
theorem runsEndAsTheirLastStepAnswers : Obligations.RunsEndAsTheirLastStepAnswers := by
  intro boundaries s t e h
  cases endOfRun_of_runLoop h with
  | stopped u r ho => exact ⟨rfl, fun _ hr => ⟨rfl, RunEnd.stopped.inj hr ▸ ho⟩, nofun, nofun⟩
  | faulted u f ho => exact ⟨rfl, nofun, fun _ hf => ⟨rfl, RunEnd.faulted.inj hf ▸ ho⟩, nofun⟩
  | cancelled u hrun => exact ⟨hrun, nofun, nofun, fun _ => rfl⟩

end Sys2Proof.Machine
end

section
/-! The operand classification in its three forms, and what the disassembly query answers for each class of word
(45_disassembler.md). -/

namespace Sys2Proof.Machine

/-! ## The word size and the three forms, equation by equation (45_disassembler.md R240, R241) -/

section
variable (m : Memory) (extras : Bool) (a : Nat)

theorem Memory.twoWord_iff : m.twoWord extras a = true ↔
    (opcodeField (m.readWord (BitVec.ofNat 16 a))).toNat ∈ [2, 3, 48, 49, 56] := by
  rw [Memory.twoWord, beq_iff_eq, opcodeSize_eq_two_iff]

theorem Memory.isOperand_succ_iff : m.isOperand extras (a + 1) = true ↔
    m.twoWord extras a = true ∧ m.isOperand extras a = false := by
  simp [Memory.isOperand]

theorem Memory.scan_succ_eq_expectOperand_iff : m.scan extras (a + 1) = .expectOperand ↔
    m.scan extras a = .expectOpcode ∧ m.twoWord extras a = true := by
  rw [Memory.scan_succ]
  cases m.scan extras a <;> simp [Memory.scanWord]

variable {m extras a}

theorem Memory.chainLength_succ_of_twoWord (h : m.twoWord extras a = true) :
    m.chainLength extras (a + 1) = m.chainLength extras a + 1 := if_pos h

theorem Memory.chainLength_succ_of_not_twoWord (h : m.twoWord extras a = false) :
    m.chainLength extras (a + 1) = 0 := if_neg (by simp [h])

end

/-! ## k(loc) counts the 2-word opcodes before loc -/

section
variable (m : Memory) (extras : Bool) (loc : Nat)

theorem Memory.chainLength_le : m.chainLength extras loc ≤ loc := by
  induction loc with
  | zero => exact Nat.le_refl 0
  | succ a ih =>
    cases h : m.twoWord extras a with
    | true => rw [Memory.chainLength_succ_of_twoWord h]; omega
    | false => rw [Memory.chainLength_succ_of_not_twoWord h]; omega

variable {m extras loc}

/-- The chain holds 2-word opcodes alone. -/
theorem Memory.twoWord_of_mem_chain {b : Nat} (hlow : loc - m.chainLength extras loc ≤ b) (hb : b < loc) :
    m.twoWord extras b = true := by
  induction loc with
  | zero => exact absurd hb b.not_lt_zero
  | succ a ih =>
    cases h : m.twoWord extras a with
    | true =>
      rw [Memory.chainLength_succ_of_twoWord h] at hlow
      obtain rfl | hlt : b = a ∨ b < a := by omega
      · exact h
      · exact ih (by omega) hlt
    | false =>
      rw [Memory.chainLength_succ_of_not_twoWord h] at hlow
      omega

/-- The chain is the longest: the word before it is no 2-word opcode. -/
theorem Memory.not_twoWord_before_chain (hlt : m.chainLength extras loc < loc) :
    m.twoWord extras (loc - m.chainLength extras loc - 1) = false := by
  induction loc with
  | zero => exact absurd hlt (Nat.not_lt_zero _)
  | succ a ih =>
    cases h : m.twoWord extras a with
    | true =>
      rw [Memory.chainLength_succ_of_twoWord h] at hlt ⊢
      rw [Nat.add_sub_add_right]
      exact ih (by omega)
    | false =>
      rw [Memory.chainLength_succ_of_not_twoWord h]
      exact h

end

/-! ## The three forms agree -/

section
variable (m : Memory) (extras : Bool) (loc : Nat)

/-- The parity form (45_disassembler.md R241): a 2-word opcode turns the class and the parity over, any other word
ends the chain. -/
theorem Memory.isOperand_iff_chainLength_odd :
    m.isOperand extras loc = true ↔ m.chainLength extras loc % 2 = 1 := by
  induction loc with
  | zero => simp [Memory.isOperand, Memory.chainLength]
  | succ a ih =>
    rw [Memory.isOperand_succ_iff, ← Bool.not_eq_true, ih]
    cases h : m.twoWord extras a with
    | true => rw [Memory.chainLength_succ_of_twoWord h, eq_self, true_and]; omega
    | false => simp [Memory.chainLength_succ_of_not_twoWord h]

/-- The forward form (45_disassembler.md R241): the machine expects an operand exactly at the operands. -/
theorem Memory.isOperand_iff_scan : m.isOperand extras loc = true ↔ m.scan extras loc = .expectOperand := by
  induction loc with
  | zero => simp [Memory.isOperand, Memory.scan]
  | succ a ih =>
    have hopcode : m.isOperand extras a = false ↔ m.scan extras a = .expectOpcode := by
      rw [← Bool.not_eq_true, ih]
      cases m.scan extras a <;> simp
    rw [Memory.isOperand_succ_iff, Memory.scan_succ_eq_expectOperand_iff, hopcode, and_comm]

end

/-- Settles O57: the equations of each form, what k(loc) counts, and the two equivalences by induction on the
location. -/
theorem threeFormsOfTheLookbehindAgree : Obligations.ThreeFormsOfTheLookbehindAgree := fun m extras =>
  ⟨m.twoWord_iff extras, rfl, m.isOperand_succ_iff extras, rfl, m.scan_succ_eq_expectOperand_iff extras,
    fun loc => ⟨m.chainLength_le extras loc, fun _ => Memory.twoWord_of_mem_chain,
      Memory.not_twoWord_before_chain, m.isOperand_iff_chainLength_odd extras loc,
      m.isOperand_iff_scan extras loc⟩⟩

/-! ## The query, one equation per class of word (45_disassembler.md R242) -/

/-- The signed form is added exactly from 0x8000 on (45_disassembler.md R243). -/
theorem literalText_eq (w : Word) : literalText w =
    if w.toNat < 0x8000 then "#" ++ Nat.repr w.toNat
    else "#" ++ Nat.repr w.toNat ++ " (-" ++ Nat.repr (65536 - w.toNat) ++ ")" := by
  by_cases hw : w.toNat < 0x8000
  · have hbit : ¬ w.getLsbD 15 = true := by rw [getLsbD_fifteen_iff]; omega
    rw [if_pos hw, literalText, if_neg hbit, decText]
  · have hbit : w.getLsbD 15 = true := by rw [getLsbD_fifteen_iff]; omega
    rw [if_neg hw, literalText, if_pos hbit, decText, decText]

section
variable {m : Memory} {extras : Bool} {a : Word}

theorem Memory.disassemble_of_ge (ha : 0x8000 ≤ a.toNat) (raw : Bool) : m.disassemble extras a raw = none :=
  if_neg (Nat.not_lt.mpr ha)

variable (ha : a.toNat < 0x8000)
include ha

theorem Memory.disassemble_raw : m.disassemble extras a true = some (.raw, literalText (m.readWord a)) :=
  if_pos ha

theorem Memory.disassemble_operand (hop : m.isOperand extras a.toNat = true) :
    m.disassemble extras a false = some (.operand, literalText (m.readWord a)) := by
  simp [Memory.disassemble, ha, hop]

theorem Memory.disassemble_unknown (hop : m.isOperand extras a.toNat = false)
    (hsize : opcodeSize extras (opcodeField (m.readWord a)).toNat = none) :
    m.disassemble extras a false = some (.unknown, literalText (m.readWord a)) := by
  simp [Memory.disassemble, ha, hop, decodeWord_of_opcodeSize_none 0#16 hsize]

theorem Memory.disassemble_instr (hop : m.isOperand extras a.toNat = false) {i : Instr}
    (hi : decodeWord extras (m.readWord a) 0#16 = .ok i) :
    m.disassemble extras a false = some (.instr, mnemonicText i) := by
  simp [Memory.disassemble, ha, hop, hi]

end

section
variable {s : State} {a : Word} {raw : Bool}

/-- The host is answered what the query answers (45_disassembler.md R248). -/
theorem State.hostDisassemble_of_some {answer : WordClass × String}
    (h : s.live.disassemble s.params.icmcExtras a raw = some answer) : s.hostDisassemble a raw = .ok answer := by
  rw [State.hostDisassemble, h]

theorem State.hostDisassemble_of_none (h : s.live.disassemble s.params.icmcExtras a raw = none) :
    s.hostDisassemble a raw = .error .noSuchWord := by
  rw [State.hostDisassemble, h]

end

/-- Settles O60: below 0x8000 the classes are tried in the order of R242, raw view, operand, no table entry,
instruction; in each, the clauses of the others do not apply. -/
theorem disassembleClassifies : Obligations.DisassembleClassifies := by
  refine ⟨literalText_eq, fun s a raw => ⟨fun ha => ?refused, fun ha => ?answered⟩⟩
  case refused =>
    have hnone := s.live.disassemble_of_ge (extras := s.params.icmcExtras) ha raw
    exact ⟨hnone, State.hostDisassemble_of_none hnone⟩
  case answered =>
    cases raw with
    | true =>
      have h := s.live.disassemble_raw (extras := s.params.icmcExtras) ha
      exact ⟨_, _, h, State.hostDisassemble_of_some h, fun _ => ⟨rfl, rfl⟩, nofun, nofun, nofun⟩
    | false =>
      cases hop : s.live.isOperand s.params.icmcExtras a.toNat with
      | true =>
        have h := Memory.disassemble_operand ha hop
        exact ⟨_, _, h, State.hostDisassemble_of_some h, nofun, fun _ _ => ⟨rfl, rfl⟩, nofun, nofun⟩
      | false =>
        by_cases hsize : opcodeSize s.params.icmcExtras (opcodeField (s.readWord a)).toNat = none
        · have h := Memory.disassemble_unknown ha hop hsize
          exact ⟨_, _, h, State.hostDisassemble_of_some h, nofun, nofun, fun _ _ _ => ⟨rfl, rfl⟩,
            fun _ _ hne => absurd hsize hne⟩
        · obtain ⟨i, hi⟩ := decodeWord_of_opcodeSize_some 0#16 hsize
          have h := Memory.disassemble_instr ha hop hi
          exact ⟨_, _, h, State.hostDisassemble_of_some h, nofun, nofun, fun _ _ hnone => absurd hnone hsize,
            fun _ _ _ => ⟨i, hi, rfl, rfl⟩⟩

end Sys2Proof.Machine
end

section
/-! Faults (60_exceptions.md): the state and the record that a routine fault leaves, and the routines that call a
hook. -/

namespace Sys2Proof.Machine

/-! ## The state a routine fault leaves (60_exceptions.md R263, R264) -/

/-- A routine that faults has only raised, but for calls of the hooks. -/
theorem Effect.eq_raise_of_fault {i : Instr} {s t : State} (h : Effect i s t) {f : FaultRecord}
    (hf : t.outcome = .fault f) : ∃ k hooks, t = (s.raise k).setHooks hooks := by
  induction h with
  | raises k => exact ⟨k, s.hooks, rfl⟩
  | afterHook hooks t ht ih =>
    obtain ⟨k, -, rfl⟩ := ih hf
    exact ⟨k, hooks, rfl⟩
  | _ => cases hf

/-! ## The routines that call a hook (43_io_system.md R190, R191) -/

section
variable (s : State)

/-- The environment is kept by an operation both of whose ends keep it. -/
theorem State.ite_hooks {c : Prop} [Decidable c] {t u : State} (ht : t.hooks = s.hooks) (hu : u.hooks = s.hooks) :
    (if c then t else u).hooks = s.hooks := by
  rw [apply_ite State.hooks, ht, hu, ite_self]

@[simp] theorem State.clearDivZero_hooks : s.clearDivZero.hooks = s.hooks := s.ite_hooks rfl rfl

@[simp] theorem State.jump_hooks (k : Cond) (target : Word) : (s.jump k target).hooks = s.hooks :=
  s.ite_hooks (s.ite_hooks (s.ite_hooks rfl rfl) rfl) rfl

@[simp] theorem State.call_hooks (k : Cond) (target : Word) : (s.call k target).hooks = s.hooks :=
  s.ite_hooks (s.ite_hooks (s.ite_hooks (s.ite_hooks rfl rfl) rfl) rfl) rfl

@[simp] theorem State.reservedCondition_hooks : s.reservedCondition.hooks = s.hooks := s.ite_hooks rfl rfl

@[simp] theorem State.push_hooks (v : Word) : (s.push v).hooks = s.hooks := s.ite_hooks rfl rfl

@[simp] theorem State.loadFrom_hooks (rx : RegIdx) (a : Word) : (s.loadFrom rx a).hooks = s.hooks :=
  s.ite_hooks rfl rfl

@[simp] theorem State.storeTo_hooks (a v : Word) : (s.storeTo a v).hooks = s.hooks := s.ite_hooks rfl rfl

/-- No routine but inchar's and outchar's calls a hook. -/
theorem exec_keeps_hooks {i : Instr} (hin : ∀ rx, i ≠ .inchar rx) (hout : ∀ rx ry, i ≠ .outchar rx ry) :
    ∃ u, exec i s = .next u ∧ u.hooks = s.hooks := by
  cases i with
  | add | addc | sub | subc | mult | and | or | xor | inc | dec => exact ⟨_, rfl, s.writeAlu_hooks _ _⟩
  | div => exact ⟨_, rfl, s.ite_hooks rfl (State.clearDivZero_hooks _)⟩
  | mod => exact ⟨_, rfl, s.ite_hooks rfl (s.writeAlu_hooks _ _)⟩
  | shiftl0 | shiftl1 | shiftr0 | shiftr1 | rotl | rotr => exact ⟨_, rfl, s.writeShift_hooks _ _⟩
  | not | movRxRy | movRxSp | cmp | halt | nop | setc | clearc => exact ⟨_, rfl, rfl⟩
  | movSpRx | popRx | popFr | loadn => exact ⟨_, rfl, s.ite_hooks rfl rfl⟩
  | jmp | jeq | jne | jz | jnz | jc | jnc | jgr | jle | jeg | jel | jov | jno | jdz | jn =>
    exact ⟨_, rfl, s.jump_hooks _ _⟩
  | call | ceq | cne | cz | cnz | cc | cnc | cgr | cle | ceg | cel | cov | cno | cdz | cn =>
    exact ⟨_, rfl, s.call_hooks _ _⟩
  | jcond15 | ccond15 => exact ⟨_, rfl, s.reservedCondition_hooks⟩
  | rts => exact ⟨_, rfl, s.ite_hooks (s.ite_hooks rfl rfl) rfl⟩
  | pushRx | pushFr => exact ⟨_, rfl, s.push_hooks _⟩
  | load => exact ⟨_, rfl, s.ite_hooks (s.loadFrom_hooks _ _) rfl⟩
  | store => exact ⟨_, rfl, s.ite_hooks (s.storeTo_hooks _ _) rfl⟩
  | loadi => exact ⟨_, rfl, s.loadFrom_hooks _ _⟩
  | storei => exact ⟨_, rfl, s.storeTo_hooks _ _⟩
  | breakp => exact ⟨_, rfl, s.ite_hooks rfl rfl⟩
  | inchar rx => exact absurd rfl (hin rx)
  | outchar rx ry => exact absurd rfl (hout rx ry)

end

section
variable {s u : State} {f : FaultRecord}

/-- The only fault of inchar is IOFault(input) (43_io_system.md R192). -/
theorem kind_of_exec_inchar {rx : RegIdx} (hu : exec (.inchar rx) s = .next u) (hf : u.outcome = .fault f) :
    f.kind = .ioFaultInput := by
  cases hkey : s.hooks.nextInput with
  | key v =>
    cases hu.symm.trans (exec_inchar_of_key hkey rx)
    cases hf
  | fault =>
    cases hu.symm.trans (exec_inchar_of_fault hkey rx)
    cases hf
    rfl

/-- The only fault of outchar is IOFault(output) (43_io_system.md R193). -/
theorem kind_of_exec_outchar {rx ry : RegIdx} (hu : exec (.outchar rx ry) s = .next u)
    (hf : u.outcome = .fault f) : f.kind = .ioFaultOutput := by
  cases hok : s.hooks.nextOutput with
  | ok =>
    cases hu.symm.trans (exec_outchar_of_ok hok rx ry)
    cases hf
  | fault =>
    cases hu.symm.trans (exec_outchar_of_fault hok rx ry)
    cases hf
    rfl

/-- A routine that ends in another fault than the I/O faults has called no hook. -/
theorem hooks_of_exec_fault {i : Instr} (hu : exec i s = .next u) (hf : u.outcome = .fault f)
    (hin : f.kind ≠ .ioFaultInput) (hout : f.kind ≠ .ioFaultOutput) : u.hooks = s.hooks := by
  have hkeeps : ∃ v, exec i s = .next v ∧ v.hooks = s.hooks := by
    refine exec_keeps_hooks s ?inchar ?outchar
    case inchar =>
      rintro rx rfl
      exact hin (kind_of_exec_inchar hu hf)
    case outchar =>
      rintro rx ry rfl
      exact hout (kind_of_exec_outchar hu hf)
  obtain ⟨v, hv, hhooks⟩ := hkeeps
  cases hu.symm.trans hv
  exact hhooks

end

/-- Settles O40: the routine has only raised, with the record of R263, so the rest of what changed is the engine's
bookkeeping. -/
theorem faultsLeaveTheStateUnchanged : Obligations.FaultsLeaveTheStateUnchanged := by
  intro s t i f hpc hfetch hstep hfault
  obtain ⟨u, hu, heffect⟩ := answersEffect i s
  cases retire_of_step hpc hfetch hu hstep
  have hhooks := hooks_of_exec_fault hu hfault
  obtain ⟨k, hooks, rfl⟩ := heffect.eq_raise_of_fault hfault
  cases hfault
  exact ⟨rfl, rfl, rfl, hhooks⟩

end Sys2Proof.Machine
end

section
/-! Reset, construction and the load of an image (70_reset_and_hazards.md). -/

namespace Sys2Proof.Machine

/-! ## Reset (70_reset_and_hazards.md R280, R281) -/

theorem Flags.get_clear (n : FlagName) : Flags.clear.get n = false := by
  cases n <;> rfl

theorem State.hostReset_reg (s : State) (i : RegIdx) : s.hostReset.reg i = 0#16 := by
  rw [State.reg, State.hostReset_regs]
  exact Vector.getElem_replicate i.isLt

/-- Settles O1: the registers and the flags one by one, every other piece of state by what reset writes into it. -/
theorem resetWritesTheListedValues : Obligations.ResetWritesTheListedValues := fun s =>
  ⟨s.hostReset_reg, Flags.get_clear, s.hostReset_pc, s.hostReset_sp,
    fun k => congrArg (Memory.readByte · k) s.hostReset_live, s.hostReset_baseline,
    s.hostReset_instructionCount, s.hostReset_running, s.hostReset_status⟩

/-! ## The constructed machine (70_reset_and_hazards.md R283) -/

/-- Memory that lists no byte reads 0 everywhere. -/
theorem Memory.readWord_nil (a : Word) : Memory.readWord [] a = 0#16 := by
  rw [Memory.readWord, Memory.readByte_nil, Memory.readByte_nil]
  rfl

/-- Settles O2: the word at address 0 is 0, and without the extras the opcode 0 has no table entry. -/
theorem constructionThenOneStep : Obligations.ConstructionThenOneStep := by
  have hword : State.reset.readWord State.reset.pc = 0#16 := Memory.readWord_nil _
  have hopcode : opcodeSize State.reset.params.icmcExtras
      (opcodeField (State.reset.readWord State.reset.pc)).toNat = none := by
    rw [hword]
    rfl
  exact ⟨Memory.readByte_nil, Memory.readByte_nil, rfl, rfl, _,
    stepOnUnknownOpcodeFaults State.reset (by decide) hopcode, rfl, rfl⟩

/-! ## The load of an image (70_reset_and_hazards.md R284) -/

/-- The first byte of a big-endian pair counts 256 (20_memory.md R34). -/
theorem wordOfBytes_toNat (hi lo : Byte) : (wordOfBytes hi lo).toNat = hi.toNat * 256 + lo.toNat := by
  rw [BitVec.toNat_append, ← Nat.shiftLeft_add_eq_or_of_lt lo.isLt, Nat.shiftLeft_eq]

/-- Word `a` of the memory of an image is the big-endian pair of its bytes `2a` and `2a + 1` (20_memory.md R34). -/
theorem imageMemory_readWord (bytes : List Byte) (a : Word) : (imageMemory 0 bytes).readWord a =
    wordOfBytes (bytes.getD (2 * a.toNat) 0#8) (bytes.getD (2 * a.toNat + 1) 0#8) := by
  simp [Memory.readWord, imageMemory_readByte]

section
variable (s : State) {bytes : List Byte}

theorem State.loadImage_of_length_ne (h : bytes.length ≠ 65536) :
    s.loadImage bytes = .error .wrongImageLength := if_neg h

theorem State.loadImage_of_length_eq (h : bytes.length = 65536) :
    s.loadImage bytes = .ok (State.hostReset { s with baseline := imageMemory 0 bytes }) := if_pos h

end

/-- Settles O58: the new baseline is the memory of the image, and its words are pairs of the image's bytes. -/
theorem loadImageFillsTheBaseline : Obligations.LoadImageFillsTheBaseline := by
  refine fun s bytes => ⟨s.loadImage_of_length_ne, fun hlength =>
    ⟨_, s.loadImage_of_length_eq hlength, rfl, ?words⟩⟩
  intro a _
  rw [State.hostReset_baseline, imageMemory_readWord, wordOfBytes_toNat]

end Sys2Proof.Machine
end
